-- ==== Sys2Proof/Word.lean ====
section
/-! DEFINITION. The word types of the block (30_encoding.md R60): plain abbreviations, no operation of the machine. -/

namespace Sys2Proof

/-- A byte of CFGMEM, and every 8-bit register. -/
abbrev Byte := BitVec 8

/-- The event word EW: 16 bits, one external event (30_encoding.md R61). -/
abbrev EventWord := BitVec 16

/-- The telegram word TG: 13 bits (30_encoding.md R67). -/
abbrev TelegramWord := BitVec 13

end Sys2Proof
end

