-- ==== Sys2Proof/Config.lean ====
section
/-! DEFINITION. The parameters of the block (00_scope.md R6), the two open ones among them, and the free values. -/

namespace Sys2Proof.Config

/-- NDEV: number of devices. -/
abbrev nDev : Nat := 4

/-- NCH: number of feedback channels. -/
abbrev nCh : Nat := 8

/-- NGRP: number of channel groups. -/
abbrev nGrp : Nat := 4

/-- WIN: samples in a window, and the stability threshold. -/
abbrev window : Nat := 8

/-- LO_MAX: largest valid low address byte. -/
abbrev loMax : Nat := 63

/-- UNCONF_BIT: the never-configured flag's bit in the high address byte. -/
abbrev unconfBit : Nat := 7

/-- HI_MASK 0x07, as a width: the three low bits of the high address byte take part in the address. -/
abbrev hiBits : Nat := 3

/-- SHIFT_BASIC. -/
abbrev shiftBasic : Nat := 6

/-- SHIFT_EXT. -/
abbrev shiftExt : Nat := 8

/-- DA_MAX: largest valid decoder address. -/
abbrev daMax : Nat := 511

/-- FB_MAX: largest valid feedback-bus address. -/
abbrev fbMax : Nat := 128

/-- RETX_MAX: largest `retransmit_count` (D12: the whole byte). -/
abbrev retxMax : Nat := 255

/-- CFG_SIZE: bytes of CFGMEM. -/
abbrev cfgSize : Nat := 11

/-- XCMD_OFFSET less one. OPEN in the spec (R6, D11); log entry 4: no body, so nothing is known of it. -/
opaque xcmdOffsetPred : Nat

/-- XCMD_MAX less XCMD_OFFSET. OPEN in the spec (R6, D11); log entry 4: no body, so nothing is known of it. -/
opaque xcmdSpan : Nat

/-- XCMD_OFFSET: any natural number that is at least 1 (R6). -/
def xcmdOffset : Nat := xcmdOffsetPred + 1

/-- XCMD_MAX: any natural number that is at least XCMD_OFFSET (R6). -/
def xcmdMax : Nat := xcmdOffset + xcmdSpan

/-- Free value: `TXBUF.addr` after the n-th RESET (70_reset_and_hazards.md R160 step 6, U8; log entry 3). -/
opaque freeTxAddr : Nat → BitVec 8

/-- Free value: `TXBUF.half` after the n-th RESET (R160 step 6, U8; log entry 3). -/
opaque freeTxHalf : Nat → Bool

/-- Free value: `TXBUF.data` after the n-th RESET (R160 step 6, U8; log entry 3). -/
opaque freeTxData : Nat → BitVec 4

end Sys2Proof.Config
end

