-- ==== Sys2Proof/Syntax.lean ====
section
/-! DEFINITION. The encoded objects of the block as terms (30_encoding.md): the six events (one constructor per row of
the opcode table), the telegram, the eleven configuration bytes, the line of a written trace, the operands of the ports. -/

namespace Sys2Proof

/-- The `gate` field of a command (R63): 0 = Green, 1 = Red. The value Unknown cannot be commanded. -/
inductive CmdGate where
  | green
  | red
deriving DecidableEq, Repr

/-- The external events (R61), one constructor per row of the opcode table. Every operand has the width of its field,
so an index out of range cannot be written (20_memory.md R42). -/
inductive Instr where
  /-- NOP: no strobe raised (R134). -/
  | nop
  /-- TICK: `bus_active` and the eight fresh samples `raw[7:0]` (R131). -/
  | tick (busActive : Bool) (raw : Byte)
  /-- DEACT: a command with `activate = 0` (R91). -/
  | deact (gate : CmdGate) (device : Fin 4)
  /-- ACT: a command with `activate = 1` (R90). -/
  | act (gate : CmdGate) (device : Fin 4)
  /-- TXDONE: the transmitter has freed the slot (R133). -/
  | txdone
  /-- RESET: its operands are the CFGMEM bytes at their port (R160, R64). -/
  | reset
deriving DecidableEq, Repr

/-- A telegram (R67): target address, half-select bit, four data bits. -/
structure Telegram where
  addr : Byte
  half : Bool
  data : BitVec 4
deriving DecidableEq, Repr

/-- The eleven configuration bytes of CFGMEM in index order, under the names of R68. -/
structure CfgBytes where
  addrLo : Byte
  addrHi : Byte
  mode : Byte
  hold0 : Byte
  hold1 : Byte
  hold2 : Byte
  hold3 : Byte
  fbAddr : Byte
  split : Byte
  retx : Byte
  reassert : Byte
deriving DecidableEq, Repr

/-- One line of a written trace (R74): an event word, and the CFGMEM contents where the line gives them. -/
structure TraceLine where
  word : EventWord
  cfg : Option CfgBytes
deriving DecidableEq, Repr

/-- The levels at the input ports `raw[7:0]` and `bus_active` (10_state.md R25): the operands of a `tick` strobe, read when
the TICK is taken (R62). -/
structure InputLevels where
  busActive : Bool
  raw : Byte
deriving DecidableEq, Repr

/-- A pre-decoded command at its port (10_state.md R25, 44_event_dispatch.md R132). -/
structure Command where
  device : Fin 4
  gate : CmdGate
  activate : Bool
deriving DecidableEq, Repr

end Sys2Proof
end

