-- ==== Sys2Proof/WellFormed.lean ====
section
/-! DEFINITION. Well-formedness of the encoded objects. The operand types of `Instr` have the widths of the fields
(20_memory.md R42), so every event is well formed and its checks hold by type; telegrams and trace lines have values the
spec excludes, and their checks refuse them. -/

namespace Sys2Proof

/-- Every operand lies in the range its field admits (R61 to R64). -/
def Instr.wellFormed : Instr → Bool
  | .nop => true
  | .tick _ raw => decide (raw.toNat < 256)
  | .deact _ device => decide (device.val < Config.nDev)
  | .act _ device => decide (device.val < Config.nDev)
  | .txdone => true
  | .reset => true

/-- A telegram is addressed to 1 to 128 (R67, 20_memory.md R43). -/
def Telegram.wellFormed (t : Telegram) : Bool :=
  decide (1 ≤ t.addr.toNat) && decide (t.addr.toNat ≤ Config.fbMax)

/-- Only a RESET line gives CFGMEM contents (R74). -/
def TraceLine.wellFormed (l : TraceLine) : Bool :=
  l.cfg.isNone || l.word == 0xF000#16

end Sys2Proof
end

