-- ==== Sys2Proof/Decode.lean ====
section
/-! DEFINITION. Decoding and encoding of event words (30_encoding.md R61 to R64, R71), of the telegram word (R67) and of
the one-bit command gate (R65); the opcode table as match and mask rows (R61). -/

namespace Sys2Proof

/-- The 1-bit command field `gate`: 0 = Green, 1 = Red (R63). -/
def CmdGate.ofBit (b : Bool) : CmdGate := if b then .red else .green

/-- The 1-bit command field `gate` of a gate (R63). -/
def CmdGate.toBit : CmdGate → Bool
  | .green => false
  | .red => true

/-- EW[15:12], the opcode. -/
def opcodeOf (w : EventWord) : BitVec 4 := w.extractLsb' 12 4

/-- EW[1:0] of a command: the device index, all four values legal (R63). -/
def deviceOf (w : EventWord) : Fin 4 := ⟨(w.extractLsb' 0 2).toNat, (w.extractLsb' 0 2).isLt⟩

/-- EW[2] of a command (R63). -/
def gateOf (w : EventWord) : CmdGate := CmdGate.ofBit (w.getLsbD 2)

/-- The event a word spells; `none` for every reserved word (R61, R71). -/
def decode (w : EventWord) : Option Instr :=
  if opcodeOf w = 0x0#4 then
    if w.extractLsb' 0 12 = 0#12 then some .nop else none
  else if opcodeOf w = 0x1#4 then
    if w.extractLsb' 9 3 = 0#3 then some (.tick (w.getLsbD 8) (w.extractLsb' 0 8)) else none
  else if opcodeOf w = 0x2#4 then
    if w.extractLsb' 4 8 = 0#8 then
      if w.getLsbD 3 then some (.act (gateOf w) (deviceOf w)) else some (.deact (gateOf w) (deviceOf w))
    else none
  else if opcodeOf w = 0x3#4 then
    if w.extractLsb' 0 12 = 0#12 then some .txdone else none
  else if opcodeOf w = 0xF#4 then
    if w.extractLsb' 0 12 = 0#12 then some .reset else none
  else none

/-- The word of a command: opcode 0x2, EW[11:4] zero, `activate`, `gate`, `device` (R61). -/
def encodeCommand (activate : Bool) (gate : CmdGate) (device : Fin 4) : EventWord :=
  0x2#4 ++ 0#8 ++ BitVec.ofBool activate ++ BitVec.ofBool gate.toBit ++ BitVec.ofNat 2 device.val

/-- The word of an event, from the patterns of R61. -/
def encode : Instr → EventWord
  | .nop => 0x0000#16
  | .tick busActive raw => 0x1#4 ++ 0#3 ++ BitVec.ofBool busActive ++ raw
  | .deact gate device => encodeCommand false gate device
  | .act gate device => encodeCommand true gate device
  | .txdone => 0x3000#16
  | .reset => 0xF000#16

/-- A row of the opcode table as match and mask (R61). -/
structure OpRow where
  mnemonic : String
  bits : EventWord
  mask : EventWord
deriving DecidableEq, Repr

/-- The six rows of R61, in the opcode table's order. -/
def opTable : List OpRow :=
  [⟨"NOP", 0x0000#16, 0xFFFF#16⟩, ⟨"TICK", 0x1000#16, 0xFE00#16⟩, ⟨"DEACT", 0x2000#16, 0xFFF8#16⟩,
   ⟨"ACT", 0x2008#16, 0xFFF8#16⟩, ⟨"TXDONE", 0x3000#16, 0xFFFF#16⟩, ⟨"RESET", 0xF000#16, 0xFFFF#16⟩]

/-- `(w & mask) = match` (R61). -/
def OpRow.fits (r : OpRow) (w : EventWord) : Bool := w &&& r.mask == r.bits

/-- The mnemonic of an event, as the opcode table spells it. -/
def Instr.mnemonic : Instr → String
  | .nop => "NOP"
  | .tick _ _ => "TICK"
  | .deact _ _ => "DEACT"
  | .act _ _ => "ACT"
  | .txdone => "TXDONE"
  | .reset => "RESET"

/-- TG[12:5] = address, TG[4] = half, TG[3:0] = data (R67). -/
def Telegram.word (t : Telegram) : TelegramWord := t.addr ++ BitVec.ofBool t.half ++ t.data

/-- The telegram a telegram word spells (R67). -/
def Telegram.ofWord (w : TelegramWord) : Telegram :=
  { addr := w.extractLsb' 5 8, half := w.getLsbD 4, data := w.extractLsb' 0 4 }

/-- The word an opcode-table instruction of `nbits` bits gives the decoder: an event is one 16-bit word (R61), so the
bits above `nbits` are 0 (log entry 16). -/
def fetchWordOf (nbits w : Nat) : EventWord := BitVec.ofNat 16 (w % 2 ^ nbits)

/-- The instruction the decoder reads from the opcode table's numbering of a word. -/
def decodeTableWord (nbits w : Nat) : Option Instr := decode (fetchWordOf nbits w)

end Sys2Proof
end

