-- ==== Sys2Proof/Machine/State.lean ====
section
/-! DEFINITION. The state of the machine as plain data: the block's five records (10_state.md R10 to R24), the ports and
the serialised trace beside them (R25 to R27, 44_event_dispatch.md R130, R136), the reasons a step stops, the reset state. -/

namespace Sys2Proof.Machine

/-- `gate_position` (R9, R12, R65). The reserved fourth encoding is not representable (U12, log entry 13). -/
inductive Gate where
  | unknown
  | green
  | red
deriving DecidableEq, Repr

/-- Addressing mode (R9): Basic = 0, Extended = 1 (30_encoding.md R68). -/
inductive AddrMode where
  | basic
  | extended
deriving DecidableEq, Repr

/-- `ENG.phase` (R22, R66). The reserved fourth encoding is not representable (U12, log entry 13). -/
inductive Phase where
  | disconnected
  | announcing
  | connected
deriving DecidableEq, Repr

/-- CFG, the configuration latch (R11): written only by RESET. -/
structure Cfg where
  mode : AddrMode
  daddrValid : Bool
  daddr : BitVec 9
  xaddr : Nat
  fbAddr : Byte
  split : Bool
  retx : Byte
  reassert : Bool
deriving DecidableEq, Repr

/-- A device record `DEV[d]` (R12 to R15). -/
structure Device where
  pos : Gate
  hold : Byte
  rem : Byte
  coilG : Bool
  coilR : Bool
deriving DecidableEq, Repr

/-- The device file `DEV[0..3]`. -/
structure DevFile where
  d0 : Device
  d1 : Device
  d2 : Device
  d3 : Device
deriving DecidableEq, Repr

/-- A channel record `CH[c]` (R16 to R21). In `win` bit 0 is the newest sample. -/
structure Channel where
  win : Byte
  fill : BitVec 4
  stable : Bool
  rep : Bool
  pend : Bool
  retx : BitVec 9
deriving DecidableEq, Repr

/-- The channel file `CH[0..7]`. -/
structure ChFile where
  c0 : Channel
  c1 : Channel
  c2 : Channel
  c3 : Channel
  c4 : Channel
  c5 : Channel
  c6 : Channel
  c7 : Channel
deriving DecidableEq, Repr

/-- The engine record ENG (R22, R23). -/
structure Engine where
  phase : Phase
  idx : Fin 4
deriving DecidableEq, Repr

/-- The transmit buffer TXBUF (R24): the one-slot interface to the external transmitter. -/
structure TxBuf where
  busy : Bool
  addr : Byte
  half : Bool
  data : BitVec 4
deriving DecidableEq, Repr

/-- The strobes pending at the input ports (R25): at most one TICK and one command (60_exceptions.md R144). A pending TICK
holds no operands: they are the levels at the ports when it is taken (R62). A pending command holds its fields as they were
presented (the model's choice: log entry 7). -/
structure Strobes where
  rst : Bool
  txDone : Bool
  tick : Bool
  cmd : Option Command
deriving DecidableEq, Repr

/-- CFGMEM as (index, byte) pairs in canonical form (R27, 20_memory.md R41; log entry 11). -/
abbrev Memory := List Host.Cell

/-- Why the machine stops with a fault. The block itself raises nothing (60_exceptions.md R140). -/
inductive Fault where
  /-- Raised by a read or write of CFGMEM at an index above 10, an access that 20_memory.md R41 says is never generated.
  Safe: RESET, the only reader, reads indices 0 to 10 alone, so no step raises it. -/
  | cfgmemIndex (index : Nat)
deriving DecidableEq, Repr

/-- Why an event word or a trace has no meaning. -/
inductive Refusal where
  /-- Raised by an arm of `exec` whose event has no meaning yet. Safe: the machine stops. -/
  | notModelled (mnemonic : String)
  /-- Raised by the step that fetches a word that spells no event (30_encoding.md R71: a model should refuse it). Safe:
  the machine stops, and the spec gives the word no meaning. -/
  | reservedWord (word : EventWord)
  /-- Raised by the run of a trace that does not begin with RESET (70_reset_and_hazards.md R161). Safe: the spec gives
  such a trace no meaning. -/
  | noReset
deriving DecidableEq, Repr

/-- The machine: the five records of R10, then the ports and the environment's side, then the model's own counter. -/
structure State where
  /-- CFG (R11). -/
  cfg : Cfg
  /-- DEV[0..3] (R12 to R15). -/
  dev : DevFile
  /-- CH[0..7] (R16 to R21). -/
  ch : ChFile
  /-- ENG (R22, R23). -/
  eng : Engine
  /-- TXBUF (R24). -/
  txbuf : TxBuf
  /-- The output `tx_valid` (R26): the event taken last made a SEND (log entry 10). -/
  txValid : Bool
  /-- The bytes at the CFGMEM port (R27). -/
  cfgmem : Memory
  /-- Events pending at the input ports (R25, R130, R144; log entry 7). -/
  strobes : Strobes
  /-- The levels at the input ports `raw` and `bus_active` (R25; log entry 19). -/
  levels : InputLevels
  /-- The serialised trace still to come (R136; log entry 5). -/
  trace : List TraceLine
  /-- The model's own: how many free values have been drawn (log entry 3). -/
  free : Nat
deriving DecidableEq, Repr

/-- No strobe raised. -/
def Strobes.idle : Strobes := { rst := false, txDone := false, tick := false, cmd := none }

/-- A device record after RESET with hold byte `hold` (R32). -/
def Device.reset (hold : Byte) : Device :=
  { pos := .unknown, hold := hold, rem := 0#8, coilG := false, coilR := false }

/-- A channel record after RESET (R32). -/
def Channel.reset : Channel :=
  { win := 0x00#8, fill := 0#4, stable := false, rep := false, pend := false, retx := 0#9 }

/-- The channel file after RESET (R32). -/
def ChFile.reset : ChFile :=
  { c0 := Channel.reset, c1 := Channel.reset, c2 := Channel.reset, c3 := Channel.reset
    c4 := Channel.reset, c5 := Channel.reset, c6 := Channel.reset, c7 := Channel.reset }

/-- ENG after RESET (R32). -/
def Engine.reset : Engine := { phase := .disconnected, idx := 0 }

/-- The machine right after RESET (R32), with nothing listed in CFGMEM: every byte of it reads 0 (log entry 1), so CFG
and the hold bytes are what R160 computes from eleven zero bytes. The contents of the slot are 0 (log entry 2). -/
def State.reset : State :=
  { cfg :=
      { mode := .basic, daddrValid := true, daddr := 0#9, xaddr := Config.xcmdOffset, fbAddr := 0#8
        split := false, retx := 0#8, reassert := false }
    dev := { d0 := Device.reset 0#8, d1 := Device.reset 0#8, d2 := Device.reset 0#8, d3 := Device.reset 0#8 }
    ch := ChFile.reset
    eng := Engine.reset
    txbuf := { busy := false, addr := 0#8, half := false, data := 0#4 }
    txValid := false
    cfgmem := []
    strobes := Strobes.idle
    levels := { busActive := false, raw := 0x00#8 }
    trace := []
    free := 0 }

end Sys2Proof.Machine
end

