-- ==== Sys2Proof/Machine/Ops.lean ====
section
/-! DEFINITION. The named operations over the state: the device and channel files, the updates of the records, CFGMEM.
The block takes no exception and returns from none (60_exceptions.md R140, R147, R148), so no such operation exists. -/

namespace Sys2Proof.Machine

/-- `DEV[d]`. -/
def DevFile.get (f : DevFile) : Fin 4 → Device
  | 0 => f.d0
  | 1 => f.d1
  | 2 => f.d2
  | 3 => f.d3

/-- `DEV[d] <- v`. -/
def DevFile.set (f : DevFile) (d : Fin 4) (v : Device) : DevFile :=
  match d with
  | 0 => { f with d0 := v }
  | 1 => { f with d1 := v }
  | 2 => { f with d2 := v }
  | 3 => { f with d3 := v }

/-- The device file whose record d is `v d`: an operation on all four devices, whose order cannot be observed (R92). -/
def DevFile.ofFn (v : Fin 4 → Device) : DevFile := { d0 := v 0, d1 := v 1, d2 := v 2, d3 := v 3 }

/-- `CH[c]`. -/
def ChFile.get (f : ChFile) : Fin 8 → Channel
  | 0 => f.c0
  | 1 => f.c1
  | 2 => f.c2
  | 3 => f.c3
  | 4 => f.c4
  | 5 => f.c5
  | 6 => f.c6
  | 7 => f.c7

/-- The channel file whose record c is `v c`: an operation on all eight lanes, whose order cannot be observed (R100). -/
def ChFile.ofFn (v : Fin 8 → Channel) : ChFile :=
  { c0 := v 0, c1 := v 1, c2 := v 2, c3 := v 3, c4 := v 4, c5 := v 5, c6 := v 6, c7 := v 7 }

/-- Writes the device file. -/
def State.setDev (s : State) (f : DevFile) : State := { s with dev := f }

/-- Writes the channel file. -/
def State.setCh (s : State) (f : ChFile) : State := { s with ch := f }

/-- Writes ENG. -/
def State.setEng (s : State) (e : Engine) : State := { s with eng := e }

/-- Writes TXBUF. -/
def State.setTxbuf (s : State) (t : TxBuf) : State := { s with txbuf := t }

/-- Drives the output `tx_valid`. -/
def State.setTxValid (s : State) (b : Bool) : State := { s with txValid := b }

/-- The environment's side: the bytes at the CFGMEM port. -/
def State.setCfgmem (s : State) (m : Memory) : State := { s with cfgmem := m }

/-- The environment's side: the strobes pending at the input ports. -/
def State.setStrobes (s : State) (p : Strobes) : State := { s with strobes := p }

/-- The environment's side: the levels at the input ports `raw` and `bus_active`; they may change at any time, also while a
TICK is held (10_state.md R25, 30_encoding.md R62). -/
def State.setLevels (s : State) (l : InputLevels) : State := { s with levels := l }

/-- The environment's side: the trace still to come. -/
def State.setTrace (s : State) (ls : List TraceLine) : State := { s with trace := ls }

/-- `DEV[d]` becomes `f DEV[d]`; no other device changes. -/
def State.modifyDev (s : State) (d : Fin 4) (f : Device → Device) : State :=
  s.setDev (s.dev.set d (f (s.dev.get d)))

/-- The output `ready` (R26): TICK, ACT and DEACT are accepted (R130). -/
def State.ready (s : State) : Bool := s.eng.phase != .announcing

/-- Acceptance of TICK, ACT and DEACT (R130): while the phase is Announcing the event is held and changes nothing (log
entry 6); otherwise its transition is applied. -/
def whenReady (s : State) (transition : State → State) : Host.Outcome State Fault Refusal :=
  if s.ready then .next (transition s) else .next s

/-- What an index of CFGMEM that the canonical form does not list reads as (log entry 11). -/
def Memory.unlisted : Byte := 0x00#8

/-- The byte at an index of CFGMEM, with no range check. -/
def Memory.byteAt : Memory → Nat → Byte
  | [], _ => Memory.unlisted
  | (k, v) :: rest, i => if k = i then v else Memory.byteAt rest i

/-- Stores a byte and keeps the canonical form, with no range check. -/
def Memory.put : Memory → Nat → Byte → Memory
  | [], i, b => if b = Memory.unlisted then [] else [(i, b)]
  | (k, v) :: rest, i, b =>
    if i < k then (if b = Memory.unlisted then (k, v) :: rest else (i, b) :: (k, v) :: rest)
    else if i = k then (if b = Memory.unlisted then rest else (i, b) :: rest)
    else (k, v) :: Memory.put rest i b

/-- The canonical form from index `lo` on: indices strictly rising and below 11, no entry equal to `Memory.unlisted`. -/
def Memory.wfFrom (lo : Nat) : Memory → Bool
  | [] => true
  | (k, v) :: rest =>
    decide (lo ≤ k) && decide (k < Config.cfgSize) && (v != Memory.unlisted) && Memory.wfFrom (k + 1) rest

/-- CFGMEM is in canonical form. -/
def Memory.wf (m : Memory) : Bool := Memory.wfFrom 0 m

/-- `MemRead(i, 1)`, written `CFGMEM[i]` (R8, R41): indices 0 to 10; any other faults. It changes nothing (R49). -/
def Memory.read (m : Memory) (i : Nat) : Except Fault Byte :=
  if i < Config.cfgSize then .ok (m.byteAt i) else .error (.cfgmemIndex i)

/-- The environment's write of one byte of the store; the core writes no memory (R8). -/
def Memory.write (m : Memory) (i : Nat) (b : Byte) : Except Fault Memory :=
  if i < Config.cfgSize then .ok (m.put i b) else .error (.cfgmemIndex i)

/-- CFGMEM holding eleven given bytes in index order (R68). -/
def Memory.ofCfg (b : CfgBytes) : Memory :=
  [(0, b.addrLo), (1, b.addrHi), (2, b.mode), (3, b.hold0), (4, b.hold1), (5, b.hold2), (6, b.hold3), (7, b.fbAddr),
    (8, b.split), (9, b.retx), (10, b.reassert)].foldl (fun m (e : Host.Cell) => Memory.put m e.1 e.2) []

end Sys2Proof.Machine
end

