-- ==== Sys2Proof/Machine/Operands.lean ====
section
/-! DEFINITION. Operand forms: the encodings of the enumerations (30_encoding.md R65, R66), the gate a command selects,
the channels of a group (20_memory.md R42), the bits of a sample word and of a window, the events of the ports. -/

namespace Sys2Proof.Machine

/-- Gate in `DEV[d].pos`: Unknown = 0, Green = 1, Red = 2 (R65). -/
def Gate.bits : Gate → BitVec 2
  | .unknown => 0b00#2
  | .green => 0b01#2
  | .red => 0b10#2

/-- Phase in `ENG.phase`: Disconnected = 0, Announcing = 1, Connected = 2 (R66). -/
def Phase.bits : Phase → BitVec 2
  | .disconnected => 0b00#2
  | .announcing => 0b01#2
  | .connected => 0b10#2

/-- `CFG.mode`: 0 = Basic, 1 = Extended (R68). -/
def AddrMode.ofBit (b : Bool) : AddrMode := if b then .extended else .basic

/-- `CFG.mode` as its bit (R11, R68). -/
def AddrMode.toBit : AddrMode → Bool
  | .basic => false
  | .extended => true

/-- The position a command's gate selects: 0 → Green, 1 → Red (R65). -/
def gateOfCmd : CmdGate → Gate
  | .green => .green
  | .red => .red

/-- The event a pre-decoded command is: `activate = 1` is ACT, `activate = 0` is DEACT (R132). -/
def instrOfCommand (c : Command) : Instr :=
  if c.activate then .act c.gate c.device else .deact c.gate c.device

/-- The event a `tick` strobe is when it is taken at given levels (R61, R62). -/
def instrOfTick (l : InputLevels) : Instr := .tick l.busActive l.raw

/-- Bit g[1] of a group index: the half of the channel file the group lies in. -/
def groupHigh (g : Fin 4) : Bool := decide (2 ≤ g.val)

/-- Bit g[0] of a group index. -/
def groupLow (g : Fin 4) : Bool := decide (g.val % 2 = 1)

/-- Channel 2g, written {g, 0} (R42). -/
def chanEven (g : Fin 4) : Fin 8 := ⟨2 * g.val, by omega⟩

/-- Channel 2g + 1, written {g, 1} (R42). -/
def chanOdd (g : Fin 4) : Fin 8 := ⟨2 * g.val + 1, by omega⟩

/-- The group of channel c is c[2:1] (R42). -/
def groupOf (c : Fin 8) : Fin 4 := ⟨c.val / 2, by omega⟩

/-- Channel 4h + i: the channel at data bit i of half h (R112). -/
def chanOfHalf (h : Bool) (i : Fin 4) : Fin 8 := ⟨(if h then 4 else 0) + i.val, by split <;> omega⟩

/-- `raw[c]`: the sample of channel c, not inverted (R62). -/
def rawBit (raw : Byte) (c : Fin 8) : Bool := raw.getLsbD c.val

/-- {win[6:0], b}: the newest sample enters at bit 0 and the old bit 7 is dropped (R100). -/
def shiftIn (win : Byte) (b : Bool) : Byte := win.extractLsb' 0 7 ++ BitVec.ofBool b

/-- Four data bits, bit i first named by i. -/
def nibble (f : Fin 4 → Bool) : BitVec 4 :=
  BitVec.ofBool (f 3) ++ BitVec.ofBool (f 2) ++ BitVec.ofBool (f 1) ++ BitVec.ofBool (f 0)

end Sys2Proof.Machine
end

