-- ==== Sys2Proof/Machine/Flags.lean ====
section
/-! DEFINITION. The status flag of a channel and the derived signals: `stable` (10_state.md R18), the arming condition
(42_feedback_sampler.md R102), `fb_enabled` (43_feedback_protocol_engine.md R114), the enable of ANNOUNCE (R118). -/

namespace Sys2Proof.Machine

/-- `fill = 8 ∧ (win = 0x00 ∨ win = 0xFF)`, on the new `fill` and `win` (R18, R100). -/
def stableFlag (fill : BitVec 4) (win : Byte) : Bool :=
  fill == 8#4 && (win == 0x00#8 || win == 0xFF#8)

/-- The arming condition (R102): the new `stable` is 1, the old one 0, and the sample differs from `rep`. -/
def armFlag (stableNew stableOld b rep : Bool) : Bool := stableNew && !stableOld && (b != rep)

/-- `fb_enabled` (R114). -/
def fbEnabled (c : Cfg) : Bool := c.fbAddr != 0#8 && (!c.split || decide (c.fbAddr.toNat ≤ 127))

/-- All eight `stable` flags are 1 (R117). -/
def allStable (f : ChFile) : Bool :=
  f.c0.stable && f.c1.stable && f.c2.stable && f.c3.stable && f.c4.stable && f.c5.stable && f.c6.stable && f.c7.stable

/-- ANNOUNCE is enabled: `ENG.phase = Announcing ∧ TXBUF.busy = 0` (R118). -/
def announceEnabled (s : State) : Bool := s.eng.phase == .announcing && !s.txbuf.busy

end Sys2Proof.Machine
end

