-- ==== Sys2Proof/Machine/Actuator.lean ====
section
/-! DEFINITION. DeviceActuator: the events ACT and DEACT and the micro-operation ACT_TICK (41_device_actuator.md R90 to
R92). -/

namespace Sys2Proof.Machine

/-- Both coils of a device off. -/
def Device.coilsOff (v : Device) : Device := { v with coilG := false, coilR := false }

/-- The coil of a gate on. -/
def Device.energize (v : Device) : CmdGate → Device
  | .green => { v with coilG := true }
  | .red => { v with coilR := true }

/-- Steps 1 to 4 of R90: both coils off, the position and the timer written, and the coil on if `hold > 0`. -/
def Device.pulse (v : Device) (g : CmdGate) : Device :=
  let started := { v.coilsOff with pos := gateOfCmd g, rem := v.hold }
  if 0 < v.hold.toNat then started.energize g else started

/-- The effect of ACT on its device (R90): a pulse if the gate differs or `CFG.reassert = 1`, else nothing. -/
def Device.activate (v : Device) (reassert : Bool) (g : CmdGate) : Device :=
  if v.pos ≠ gateOfCmd g ∨ reassert = true then v.pulse g else v

/-- The effect of ACT_TICK on one device (R92). -/
def Device.tick (v : Device) : Device :=
  if 0 < v.rem.toNat then
    let counted := { v with rem := v.rem - 1#8 }
    if counted.rem = 0#8 then counted.coilsOff else counted
  else v

/-- ACT_TICK (R92): all four devices. -/
def actTick (s : State) : State := s.setDev (DevFile.ofFn fun d => (s.dev.get d).tick)

/-- ACT d, gate (R90); held while Announcing (R130). -/
def execAct (gate : CmdGate) (device : Fin 4) (s : State) : Host.Outcome State Fault Refusal :=
  whenReady s fun s => s.modifyDev device fun v => v.activate s.cfg.reassert gate

/-- DEACT d, gate (R91): accepted and ignored; held while Announcing (R130). -/
def execDeact (_gate : CmdGate) (_device : Fin 4) (s : State) : Host.Outcome State Fault Refusal :=
  whenReady s fun s => s

end Sys2Proof.Machine
end

