-- ==== Sys2Proof/Machine/Sampler.lean ====
section
/-! DEFINITION. FeedbackSampler: the micro-operations SAMPLE, QUERY and COMMIT (42_feedback_sampler.md R100 to R104). -/

namespace Sys2Proof.Machine

/-- SAMPLE on one channel, with its sample `b` and `CFG.retx` (R100, R102). -/
def Channel.sample (v : Channel) (repeats : Byte) (b : Bool) : Channel :=
  let win := shiftIn v.win b
  let fill := BitVec.ofNat 4 (min (v.fill.toNat + 1) Config.window)
  let stable := stableFlag fill win
  let arm := armFlag stable v.stable b v.rep
  { v with
    win := win
    fill := fill
    stable := stable
    pend := if arm then b else v.pend
    retx := if arm then BitVec.ofNat 9 (repeats.toNat + 1) else v.retx }

/-- SAMPLE(raw) (R100): all eight channels. -/
def sample (raw : Byte) (s : State) : State :=
  s.setCh (ChFile.ofFn fun c => (s.ch.get c).sample s.cfg.retx (rawBit raw c))

/-- The pair QUERY returns (R103). -/
structure GroupStatus where
  allStable : Bool
  anyChanged : Bool
deriving DecidableEq, Repr

/-- QUERY g (R103): it reads and writes nothing. -/
def query (f : ChFile) (g : Fin 4) : GroupStatus :=
  { allStable := (f.get (chanEven g)).stable && (f.get (chanOdd g)).stable
    anyChanged := decide (0 < (f.get (chanEven g)).retx.toNat) || decide (0 < (f.get (chanOdd g)).retx.toNat) }

/-- COMMIT on one channel (R104): `rep <- pend`, `retx` down by one with floor 0. -/
def Channel.commit (v : Channel) : Channel :=
  { v with rep := v.pend, retx := BitVec.ofNat 9 (v.retx.toNat - 1) }

/-- COMMIT g (R104): the two channels of the group, no other. -/
def commit (g : Fin 4) (s : State) : State :=
  s.setCh (ChFile.ofFn fun c => if groupOf c = g then (s.ch.get c).commit else s.ch.get c)

end Sys2Proof.Machine
end

