-- ==== Sys2Proof/Machine/Engine.lean ====
section
/-! DEFINITION. FeedbackProtocolEngine: the multiplexer and the micro-operations SEND, TRY_SEND and ANNOUNCE
(43_feedback_protocol_engine.md R110 to R119). -/

namespace Sys2Proof.Machine

/-- The groups in their fixed priority order (R110). -/
def groupOrder : List (Fin 4) := [0, 1, 2, 3]

/-- The target address of group g (R111). The sum never leaves 1 to 128 where `fb_enabled` (R114). -/
def groupAddr (c : Cfg) (g : Fin 4) : Byte :=
  if c.split then c.fbAddr + (if groupHigh g then 1#8 else 0#8) else c.fbAddr

/-- The half-select bit of group g (R111). -/
def groupHalf (c : Cfg) (g : Fin 4) : Bool := if c.split then groupLow g else groupHigh g

/-- Data bit i of the telegram of group g (R112). -/
def groupDataBit (c : Cfg) (f : ChFile) (g : Fin 4) (i : Fin 4) : Bool :=
  if c.split then
    let k := if groupLow g then 2 else 0
    if i.val = k then (f.get (chanEven g)).pend
    else if i.val = k + 1 then (f.get (chanOdd g)).pend
    else false
  else (f.get (chanOfHalf (groupHigh g) i)).pend

/-- The telegram of group g, from the `pend` bits of this moment (R111, R112). -/
def groupTelegram (c : Cfg) (f : ChFile) (g : Fin 4) : Telegram :=
  { addr := groupAddr c g, half := groupHalf c g, data := nibble (groupDataBit c f g) }

/-- SEND g (R113): the slot takes the telegram and `tx_valid` pulses. Its precondition `TXBUF.busy = 0` is met by both
callers, ANNOUNCE and the scan. -/
def send (g : Fin 4) (s : State) : State :=
  let t := groupTelegram s.cfg s.ch g
  (s.setTxbuf { busy := true, addr := t.addr, half := t.half, data := t.data }).setTxValid true

/-- The join guard (R117). -/
def joinGuard (s : State) : State :=
  if allStable s.ch then s.setEng { phase := .announcing, idx := 0 } else s

/-- The scan over the groups in the order given (R119): the first one stable and changed is sent and committed. -/
def scanGroups : List (Fin 4) → State → State
  | [], s => s
  | g :: rest, s =>
    if (query s.ch g).allStable && (query s.ch g).anyChanged then commit g (send g s) else scanGroups rest s

/-- The Connected scan (R119): it declines where the slot is busy. -/
def scan (s : State) : State := if s.txbuf.busy then s else scanGroups groupOrder s

/-- TRY_SEND (R115, R116). -/
def trySend (busActive : Bool) (s : State) : State :=
  if !fbEnabled s.cfg then s
  else if !busActive then s.setEng { s.eng with phase := .disconnected }
  else if s.eng.phase = .disconnected then joinGuard s
  else scan s

/-- The engine record after an ANNOUNCE (R118). -/
def Engine.announced (e : Engine) : Engine :=
  if e.idx = 3 then { e with phase := .connected } else { e with idx := e.idx + 1 }

/-- ANNOUNCE (R118), enabled or not: SEND of group `ENG.idx`, then the next group or Connected. It does not commit. -/
def announce (s : State) : State := (send s.eng.idx s).setEng s.eng.announced

/-- The eager internal step (R135): ANNOUNCE, once, if it is enabled. -/
def announceStep (s : State) : State := if announceEnabled s then announce s else s

end Sys2Proof.Machine
end

