-- ==== Sys2Proof/Machine/Resolver.lean ====
section
/-! DEFINITION. AddressResolver and RESET: RESOLVE (40_address_resolver.md R80 to R84) and the RESET event
(70_reset_and_hazards.md R160). -/

namespace Sys2Proof.Machine

/-- `shift` of the high address bits (R81). -/
def addrShift : AddrMode → Nat
  | .basic => Config.shiftBasic
  | .extended => Config.shiftExt

/-- `composed`: an exact natural number, 0 to 2047 (R81). -/
def composedAddr (mode : AddrMode) (lo hi : Byte) : Nat :=
  lo.toNat + (hi.extractLsb' 0 Config.hiBits).toNat * 2 ^ addrShift mode

/-- Validity of the decoder address: the three conditions of R82. -/
def addrValid (mode : AddrMode) (lo hi : Byte) : Bool :=
  decide (lo.toNat ≤ Config.loMax) && !hi.getLsbD Config.unconfBit && decide (composedAddr mode lo hi ≤ Config.daMax)

/-- `CFG.daddr`: the composed address, 0 when Invalid (R82). -/
def resolvedAddr (mode : AddrMode) (lo hi : Byte) : BitVec 9 :=
  if addrValid mode lo hi then BitVec.ofNat 9 (composedAddr mode lo hi) else 0#9

/-- `CFG.fb_addr`: above 128 is normalised to 0 (R83). -/
def resolvedFbAddr (fb : Byte) : Byte := if fb.toNat > Config.fbMax then 0#8 else fb

/-- The extended command address for given parameters (R84); an Invalid decoder address gives the sentinel. -/
def extendedAddr (offset max : Nat) (valid : Bool) (composed : Nat) : Nat :=
  if valid && decide (composed + offset ≤ max) then composed + offset else offset - 1

/-- The CFG that RESET installs: RESOLVE (R81 to R84) and the flag and count bytes (R160 step 2). -/
def cfgOf (b : CfgBytes) : Cfg :=
  let mode := AddrMode.ofBit (b.mode.getLsbD 0)
  { mode := mode
    daddrValid := addrValid mode b.addrLo b.addrHi
    daddr := resolvedAddr mode b.addrLo b.addrHi
    xaddr := extendedAddr Config.xcmdOffset Config.xcmdMax (addrValid mode b.addrLo b.addrHi)
      (composedAddr mode b.addrLo b.addrHi)
    fbAddr := resolvedFbAddr b.fbAddr
    split := b.split.getLsbD 0
    retx := b.retx
    reassert := b.reassert.getLsbD 0 }

/-- Reads the eleven bytes of CFGMEM, each index once (R41). -/
def loadCfg (m : Memory) : Except Fault CfgBytes := do
  let addrLo ← m.read 0
  let addrHi ← m.read 1
  let mode ← m.read 2
  let hold0 ← m.read 3
  let hold1 ← m.read 4
  let hold2 ← m.read 5
  let hold3 ← m.read 6
  let fbAddr ← m.read 7
  let split ← m.read 8
  let retx ← m.read 9
  let reassert ← m.read 10
  return { addrLo, addrHi, mode, hold0, hold1, hold2, hold3, fbAddr, split, retx, reassert }

/-- The state RESET installs (R160 steps 1 to 6). The contents of the slot are unspecified: free values (log entry 3).
The ports keep what the environment holds there. -/
def resetWith (b : CfgBytes) (s : State) : State :=
  { s with
    cfg := cfgOf b
    dev := { d0 := Device.reset b.hold0, d1 := Device.reset b.hold1, d2 := Device.reset b.hold2, d3 := Device.reset b.hold3 }
    ch := ChFile.reset
    eng := Engine.reset
    txbuf :=
      { busy := false, addr := Config.freeTxAddr s.free, half := Config.freeTxHalf s.free
        data := Config.freeTxData s.free }
    free := s.free + 1 }

/-- RESET (R160): accepted in every phase (R130); its operands are the bytes at the CFGMEM port. -/
def execReset (s : State) : Host.Outcome State Fault Refusal :=
  match loadCfg s.cfgmem with
  | .ok b => .next (resetWith b s)
  | .error f => .fault f

end Sys2Proof.Machine
end

