-- ==== Sys2Proof/Machine/Events.lean ====
section
/-! DEFINITION. Event dispatch (44_event_dispatch.md): the events TICK, TXDONE and NOP, acceptance (R130), the order in
which pending strobes are taken (60_exceptions.md R146), and the fetch of the next event. -/

namespace Sys2Proof.Machine

/-- TICK raw, bus_active (R131): ACT_TICK, SAMPLE, TRY_SEND; held while Announcing (R130). -/
def execTick (busActive : Bool) (raw : Byte) (s : State) : Host.Outcome State Fault Refusal :=
  whenReady s fun s => trySend busActive (sample raw (actTick s))

/-- TXDONE (R133): the slot is free; accepted in every phase. -/
def execTxdone (s : State) : Host.Outcome State Fault Refusal :=
  .next (s.setTxbuf { s.txbuf with busy := false })

/-- NOP (R134): no change to any state; accepted in every phase. -/
def execNop (s : State) : Host.Outcome State Fault Refusal := .next s

/-- The event is a TICK: the unit in which a pulse is counted (41_device_actuator.md R93). -/
def isTick (i : Instr) : Bool :=
  match i with
  | .nop => false
  | .tick _ _ => true
  | .deact _ _ => false
  | .act _ _ => false
  | .txdone => false
  | .reset => false

/-- Acceptance of an event in a phase (R130). -/
def accepted (i : Instr) (p : Phase) : Bool :=
  match i with
  | .nop => true
  | .tick _ _ => p != .announcing
  | .deact _ _ => p != .announcing
  | .act _ _ => p != .announcing
  | .txdone => true
  | .reset => true

/-- The environment raises strobes together (R146). A RESET discards everything else that was pending; the strobes
raised with it stay. A port that already holds a TICK or a command keeps the one it holds (R144, log entry 7). The levels
`raw` and `bus_active` are not raised with a TICK: they stand at their ports (`State.setLevels`) and are read when it is
taken (R62). The trace is as before, a held word at its head included (the model's choice: log entry 18). -/
def State.raise (s : State) (p : Strobes) : State :=
  if p.rst then s.setStrobes p
  else
    s.setStrobes
      { rst := s.strobes.rst
        txDone := s.strobes.txDone || p.txDone
        tick := s.strobes.tick || p.tick
        cmd := s.strobes.cmd <|> p.cmd }

/-- The pending strobe taken next, with the state in which it is lowered: RESET, then TXDONE, then TICK, then the
command, the last two only where they are accepted (R130, R146). A TICK takes the levels `raw` and `bus_active` as they
stand at their ports now, however long it was held (R62). A RESET taken here leaves the trace alone, so that a word held at
its head is taken after the RESET (the model's choice: log entry 18). -/
def nextStrobe (s : State) : Option (Instr × State) :=
  if s.strobes.rst then some (.reset, s.setStrobes { s.strobes with rst := false })
  else if s.strobes.txDone then some (.txdone, s.setStrobes { s.strobes with txDone := false })
  else if s.ready then
    if s.strobes.tick then some (instrOfTick s.levels, s.setStrobes { s.strobes with tick := false })
    else
      match s.strobes.cmd with
      | some c => some (instrOfCommand c, s.setStrobes { s.strobes with cmd := none })
      | none => none
  else none

/-- What the core finds when it looks for its next event. -/
inductive Fetched where
  /-- An event that is accepted, and the state that has given it up. -/
  | event (i : Instr) (s : State)
  /-- An event of the trace that is held: the run is blocked (R136). -/
  | held (i : Instr)
  /-- A reserved word (R71). -/
  | reserved (w : EventWord)
deriving DecidableEq, Repr

/-- The bytes a trace line gives are presented at the CFGMEM port (R74, log entry 12). -/
def State.presentCfg (s : State) : Option CfgBytes → State
  | none => s
  | some b => s.setCfgmem (Memory.ofCfg b)

/-- A RESET of the trace discards what was pending at the ports (R146, log entry 8). -/
def State.discardFor (s : State) (i : Instr) : State :=
  if i = .reset then s.setStrobes Strobes.idle else s

/-- The next event: a pending strobe that is accepted (R146), else the next word of the trace (R136), else none raised,
which is NOP (R134, log entry 5). -/
def fetch (s : State) : Fetched :=
  match nextStrobe s with
  | some (i, t) => .event i t
  | none =>
    match s.trace with
    | [] => .event .nop s
    | l :: rest =>
      match decode l.word with
      | none => .reserved l.word
      | some i =>
        if accepted i s.eng.phase then .event i (((s.setTrace rest).presentCfg l.cfg).discardFor i)
        else .held i

end Sys2Proof.Machine
end

