-- ==== Sys2Proof/Machine/Dispatch.lean ====
section
/-! DEFINITION. One arm per event of the opcode table, each one direct call of its meaning. -/

namespace Sys2Proof.Machine

def exec (i : Instr) (s : State) : Host.Outcome State Fault Refusal :=
  match i with
  | .nop => Sys2Proof.Machine.execNop s
  | .tick busActive raw => Sys2Proof.Machine.execTick busActive raw s
  | .deact gate device => Sys2Proof.Machine.execDeact gate device s
  | .act gate device => Sys2Proof.Machine.execAct gate device s
  | .txdone => Sys2Proof.Machine.execTxdone s
  | .reset => Sys2Proof.Machine.execReset s

end Sys2Proof.Machine
end

