-- ==== Sys2Proof/Machine/Step.lean ====
section
/-! DEFINITION. One step: the next event is fetched, its transition applied, and the eager ANNOUNCE taken after it
(44_event_dispatch.md R135, R136). -/

namespace Sys2Proof.Machine

/-- An event taken: `tx_valid` falls, the event's transition is applied, and ANNOUNCE follows if it is enabled (R135). -/
def takeEvent (i : Instr) (s : State) : Host.Outcome State Fault Refusal :=
  match exec i (s.setTxValid false) with
  | .next t => .next (announceStep t)
  | .fault f => .fault f
  | .refused r => .refused r

/-- One step of the machine. A held event of the trace leaves the state as it is (R130, R136; log entry 6). -/
def step (s : State) : Host.Outcome State Fault Refusal :=
  match fetch s with
  | .event i t => takeEvent i t
  | .held _ => .next s
  | .reserved w => .refused (.reservedWord w)

/-- `s` with the word next in its trace and no strobe pending, so that the next step fetches exactly it (log entry 5). -/
def State.withFetchWord (s : State) (nbits w : Nat) : State :=
  (s.setStrobes Strobes.idle).setTrace ({ word := fetchWordOf nbits w, cfg := none } :: s.trace)

end Sys2Proof.Machine
end

