-- ==== Sys2Proof/Machine/Ports.lean ====
section
/-! DEFINITION. The output ports as a function of the state (10_state.md R26). -/

namespace Sys2Proof.Machine

/-- The output ports (R26). Bit d of a coil vector is the coil of device d. -/
structure Outputs where
  coilG : BitVec 4
  coilR : BitVec 4
  daddrValid : Bool
  daddr : BitVec 9
  xaddr : Nat
  fbAddr : Byte
  txValid : Bool
  txAddr : Byte
  txHalf : Bool
  txData : BitVec 4
  ready : Bool
  connected : Bool
deriving DecidableEq, Repr

/-- The telegram in the slot. -/
def TxBuf.telegram (t : TxBuf) : Telegram := { addr := t.addr, half := t.half, data := t.data }

/-- The output ports of a state (R26). -/
def outputs (s : State) : Outputs :=
  { coilG := nibble fun d => (s.dev.get d).coilG
    coilR := nibble fun d => (s.dev.get d).coilR
    daddrValid := s.cfg.daddrValid
    daddr := s.cfg.daddr
    xaddr := s.cfg.xaddr
    fbAddr := s.cfg.fbAddr
    txValid := s.txValid
    txAddr := s.txbuf.addr
    txHalf := s.txbuf.half
    txData := s.txbuf.data
    ready := s.ready
    connected := s.eng.phase == .connected }

/-- The telegram word handed over by the event taken last, if it made a SEND (R113, R137). -/
def sentWord (s : State) : Option TelegramWord :=
  if s.txValid then some s.txbuf.telegram.word else none

end Sys2Proof.Machine
end

