-- ==== Sys2Proof/Machine/Trace.lean ====
section
/-! DEFINITION. Written traces: their pseudo-instructions (30_encoding.md R75), their text (R74), their run
(44_event_dispatch.md R136) and what a run shows (R137). -/

namespace Sys2Proof.Machine

/-- The line of an event that gives no CFGMEM contents (R74). -/
def lineOf (i : Instr) : TraceLine := { word := encode i, cfg := none }

/-- The line RESET cfg=[…] (R74). -/
def resetLine (b : CfgBytes) : TraceLine := { word := encode .reset, cfg := some b }

/-- TICKN n, raw bus: n copies of one TICK (R75). -/
def tickN (n : Nat) (busActive : Bool) (raw : Byte) : List TraceLine :=
  List.replicate n (lineOf (.tick busActive raw))

/-- SETTLE raw bus: TICKN 8 (R75). -/
def settle (busActive : Bool) (raw : Byte) : List TraceLine := tickN 8 busActive raw

/-- A hexadecimal digit as the notation writes it (R74). -/
def hexDigit (n : Nat) : String := ("0123456789ABCDEF".toList.getD n '0').toString

/-- Two hexadecimal digits of a byte (R74). -/
def hexByte (b : Byte) : String := hexDigit (b.toNat / 16) ++ hexDigit (b.toNat % 16)

/-- The letter of a command's gate (R74). -/
def gateLetter : CmdGate → String
  | .green => "G"
  | .red => "R"

/-- The eleven bytes as RESET writes them (R74). -/
def cfgText (b : CfgBytes) : String :=
  "cfg=[" ++ String.intercalate " " ([b.addrLo, b.addrHi, b.mode, b.hold0, b.hold1, b.hold2, b.hold3, b.fbAddr, b.split,
    b.retx, b.reassert].map hexByte) ++ "]"

/-- An event in the trace notation (R74); RESET without its bytes. -/
def eventText : Instr → String
  | .nop => "NOP"
  | .tick busActive raw => "TICK raw=0x" ++ hexByte raw ++ " bus=" ++ (if busActive then "1" else "0")
  | .deact gate device => "DEACT " ++ hexDigit device.val ++ ", " ++ gateLetter gate
  | .act gate device => "ACT " ++ hexDigit device.val ++ ", " ++ gateLetter gate
  | .txdone => "TXDONE"
  | .reset => "RESET"

/-- A line in the trace notation (R74); `none` for a reserved word, which spells no event. -/
def lineText (l : TraceLine) : Option String :=
  (decode l.word).map fun i =>
    match l.cfg with
    | none => eventText i
    | some b => eventText i ++ " " ++ cfgText b

/-- The resolved address outputs (R137). -/
structure Addresses where
  daddrValid : Bool
  daddr : BitVec 9
  xaddr : Nat
  fbAddr : Byte
deriving DecidableEq, Repr

/-- The observable behaviour of a run, and nothing else (R137). -/
structure Behaviour where
  /-- The telegram words SEND produced, in order. -/
  telegrams : List TelegramWord
  /-- The coil outputs `coil_g` and `coil_r` after each event. -/
  coils : List (BitVec 4 × BitVec 4)
  /-- The resolved address outputs after each RESET. -/
  addresses : List Addresses
  /-- The outputs `ready` and `connected` after each event. -/
  status : List (Bool × Bool)
deriving DecidableEq, Repr

/-- A run of no event shows nothing. -/
def Behaviour.empty : Behaviour := { telegrams := [], coils := [], addresses := [], status := [] }

/-- What one run shows, followed by what another shows. -/
def Behaviour.append (a b : Behaviour) : Behaviour :=
  { telegrams := a.telegrams ++ b.telegrams, coils := a.coils ++ b.coils, addresses := a.addresses ++ b.addresses
    status := a.status ++ b.status }

/-- The resolved address outputs of a state (R137). -/
def addressesOf (s : State) : Addresses :=
  { daddrValid := (outputs s).daddrValid, daddr := (outputs s).daddr, xaddr := (outputs s).xaddr
    fbAddr := (outputs s).fbAddr }

/-- What one event shows, taken with the state it ends in (R137). -/
def observe (i : Instr) (s : State) : Behaviour :=
  { telegrams := (sentWord s).toList
    coils := [((outputs s).coilG, (outputs s).coilR)]
    addresses := if i = .reset then [addressesOf s] else []
    status := [((outputs s).ready, (outputs s).connected)] }

/-- The result of a run (R136): all lines executed, or blocked at a held event, with the state reached and what was
shown; or no meaning. -/
inductive RunResult where
  | finished (s : State) (shown : Behaviour)
  | blocked (s : State) (shown : Behaviour)
  | refused (r : Refusal)
  | fault (f : Fault)
deriving DecidableEq, Repr

/-- Puts what was shown before in front of what a run shows. -/
def RunResult.after (shown : Behaviour) : RunResult → RunResult
  | .finished s later => .finished s (shown.append later)
  | .blocked s later => .blocked s (shown.append later)
  | .refused r => .refused r
  | .fault f => .fault f

/-- Runs the lines one after another, from a state with no strobe pending (R136): each is fetched and taken as `step`
does, and a held one blocks the run. -/
def runLines : List TraceLine → State → RunResult
  | [], s => .finished s Behaviour.empty
  | l :: rest, s =>
    match fetch (s.setTrace [l]) with
    | .event i u =>
      match takeEvent i u with
      | .next t => (runLines rest t).after (observe i t)
      | .fault f => .fault f
      | .refused r => .refused r
    | .held _ => .blocked s Behaviour.empty
    | .reserved w => .refused (.reservedWord w)

/-- Takes events one after another, each with its eager ANNOUNCE; `none` where one of them is held or stops (R130,
R135). -/
def takeAccepted : List Instr → State → Option State
  | [], s => some s
  | i :: rest, s =>
    if accepted i s.eng.phase then
      match takeEvent i s with
      | .next t => takeAccepted rest t
      | .fault _ => none
      | .refused _ => none
    else none

/-- The first reserved word of a trace, if any (R71). -/
def firstReserved : List TraceLine → Option EventWord
  | [] => none
  | l :: rest => if (decode l.word).isNone then some l.word else firstReserved rest

/-- The run of a trace (R136): one that holds a reserved word is refused whole (R71), and so is one that does not begin
with RESET (R161). RESET does not depend on the state before it, so the run starts from `State.reset`. -/
def runTrace (ls : List TraceLine) : RunResult :=
  match firstReserved ls with
  | some w => .refused (.reservedWord w)
  | none =>
    match ls with
    | [] => .refused .noReset
    | l :: _ => if decode l.word = some .reset then runLines ls State.reset else .refused .noReset

/-- What a run shows to the outside (R137); `none` where the trace has no meaning. -/
def RunResult.behaviour : RunResult → Option Behaviour
  | .finished _ shown => some shown
  | .blocked _ shown => some shown
  | .refused _ => none
  | .fault _ => none

/-- A trace is well paced where nothing in it is ever held (R136). -/
def wellPaced (ls : List TraceLine) : Bool :=
  match runTrace ls with
  | .finished _ _ => true
  | .blocked _ _ => false
  | .refused _ => false
  | .fault _ => false

end Sys2Proof.Machine
end

