-- ==== Sys2Proof/Safety.lean ====
section
/-! DEFINITION. What counts as a good state: the invariants of 10_state.md R28 to R30, the legal values of CFG (R11), the
addresses a telegram may carry (20_memory.md R43), the canonical form of CFGMEM. -/

namespace Sys2Proof.Safety

open Sys2Proof.Machine

/-- R28, for one device. -/
abbrev DeviceInv (v : Device) : Prop :=
  ¬ (v.coilG = true ∧ v.coilR = true) ∧
  (0 < v.rem.toNat →
    (v.pos = .green ∧ v.coilG = true ∧ v.coilR = false) ∨ (v.pos = .red ∧ v.coilR = true ∧ v.coilG = false)) ∧
  (v.rem = 0#8 → v.coilG = false ∧ v.coilR = false) ∧
  v.rem.toNat ≤ v.hold.toNat ∧
  (v.pos = .unknown → v.rem = 0#8)

/-- R29, for one channel, with `CFG.retx`; `fill` counts to 8 (R17). -/
abbrev ChannelInv (repeats : Byte) (v : Channel) : Prop :=
  (v.stable = true ↔ v.fill = 8#4 ∧ (v.win = 0x00#8 ∨ v.win = 0xFF#8)) ∧
  v.retx.toNat ≤ repeats.toNat + 1 ∧
  (v.pend ≠ v.rep → v.retx.toNat = repeats.toNat + 1) ∧
  v.fill.toNat ≤ 8

/-- R30: the engine has left Disconnected only where feedback is enabled. -/
abbrev EngineInv (s : State) : Prop := s.eng.phase ≠ .disconnected → fbEnabled s.cfg = true

/-- R11: the legal values of CFG. -/
abbrev CfgInv (c : Cfg) : Prop :=
  c.fbAddr.toNat ≤ Config.fbMax ∧ (c.daddrValid = false → c.daddr = 0#9) ∧
  (c.xaddr = Config.xcmdOffset - 1 ∨ (Config.xcmdOffset ≤ c.xaddr ∧ c.xaddr ≤ Config.xcmdMax))

/-- R43, R67: a telegram in the occupied slot is addressed to 1 to 128. -/
abbrev SlotInv (s : State) : Prop := s.txbuf.busy = true → s.txbuf.telegram.wellFormed = true

/-- R135: between events ANNOUNCE is never enabled, since it is taken as soon as it is. -/
abbrev EagerInv (s : State) : Prop := announceEnabled s = false

/-- Everything that holds of every state the machine reaches. -/
structure Inv (s : State) : Prop where
  device : ∀ d, DeviceInv (s.dev.get d)
  channel : ∀ c, ChannelInv s.cfg.retx (s.ch.get c)
  engine : EngineInv s
  cfg : CfgInv s.cfg
  slot : SlotInv s
  eager : EagerInv s
  cfgmem : s.cfgmem.wf = true

/-- The environment's side is as before: every byte of CFGMEM reads as before, the strobes, the levels of `raw`
and `bus_active` and the trace are the same. -/
abbrev PortsKept (s t : State) : Prop :=
  (∀ i, t.cfgmem.read i = s.cfgmem.read i) ∧ t.strobes = s.strobes ∧ t.levels = s.levels ∧ t.trace = s.trace

end Sys2Proof.Safety
end

