-- ==== Sys2Proof/Certificates/Slice0/Obligations.lean ====
section
/-! DEFINITION. The statements for the provers. Each docstring names the rule of spec/ it formalises. -/

open Sys2Proof Sys2Proof.Machine Sys2Proof.Safety

/-! ### Encoding (30_encoding.md) -/

/-- R61: decoding the word of a well-formed event gives the event back, every operand at every value. -/
def Obligations.DecodingAnEncodedEventGivesItBack : Prop :=
  ∀ i : Instr, i.wellFormed = true → decode (encode i) = some i ∧ decodeTableWord 16 (encode i).toNat = some i

/-- R61: each event has one word. -/
def Obligations.EncodingADecodedWordGivesItBack : Prop :=
  ∀ (w : EventWord) (i : Instr), decode w = some i → encode i = w

/-- R61: a word spells an event iff exactly one row of the table fits it, and that row is the event's. -/
def Obligations.WordSpellsAnEventIffOneRowFits : Prop :=
  ∀ w : EventWord,
    ((decode w).isSome = true ↔ (opTable.filter fun r => r.fits w).length = 1) ∧
    ∀ i, decode w = some i → ∀ r ∈ opTable, r.fits w = true → r.mnemonic = i.mnemonic

/-- R61, R71: some words of 95_test_vectors.md section 2.1, spelled and reserved. -/
def Obligations.SpelledWordsDecodeToTheirEvents : Prop :=
  decode 0x0000#16 = some .nop ∧ decode 0x10A5#16 = some (.tick false 0xA5#8) ∧
  decode 0x11FF#16 = some (.tick true 0xFF#8) ∧ decode 0x2006#16 = some (.deact .red 2) ∧
  decode 0x200E#16 = some (.act .red 2) ∧ decode 0x3000#16 = some .txdone ∧ decode 0xF000#16 = some .reset ∧
  decode 0x1200#16 = none ∧ decode 0x2010#16 = none ∧ decode 0x4000#16 = none

/-- R67: `TG = address × 32 + half × 16 + data`, and the fields are read back from it. -/
def Obligations.TelegramWordHoldsItsFields : Prop :=
  ∀ t : Telegram, t.word.toNat = t.addr.toNat * 32 + t.half.toNat * 16 + t.data.toNat ∧ Telegram.ofWord t.word = t

/-- R65, R66: the encodings of `DEV[d].pos` and `ENG.phase`, the value 3 being none; the position a command's gate selects
is {gate, ¬gate}. -/
def Obligations.EnumerationEncodings : Prop :=
  Gate.unknown.bits = 0b00#2 ∧ Gate.green.bits = 0b01#2 ∧ Gate.red.bits = 0b10#2 ∧ (∀ p : Gate, p.bits ≠ 0b11#2) ∧
  (∀ g : CmdGate, (gateOfCmd g).bits = BitVec.ofBool g.toBit ++ BitVec.ofBool (!g.toBit)) ∧
  Phase.disconnected.bits = 0b00#2 ∧ Phase.announcing.bits = 0b01#2 ∧ Phase.connected.bits = 0b10#2 ∧
  ∀ p : Phase, p.bits ≠ 0b11#2

/-! ### Events -/

/-- R134, whole: NOP is the word 0x0000, accepted in every phase, and changes nothing. -/
def Obligations.NopIsAcceptedAndChangesNothing : Prop :=
  decode 0x0000#16 = some .nop ∧ ∀ s : State, accepted .nop s.eng.phase = true ∧ exec .nop s = .next s

/-- R91: DEACT is ACT's word with EW[3] = 0, accepted only when the phase is not Announcing, and changes nothing,
whatever the device, its coils included. That a held DEACT, too, answers the same state is the model's (log entry 6, DEDUCED
from R130). -/
def Obligations.DeactIsAcceptedAndIgnored : Prop :=
  ∀ (g : CmdGate) (d : Fin 4),
    (encode (.act g d)).getLsbD 3 = true ∧ encode (.deact g d) = encode (.act g d) &&& 0xFFF7#16 ∧
    ∀ s : State, (accepted (.deact g d) s.eng.phase = true ↔ s.eng.phase ≠ .announcing) ∧ exec (.deact g d) s = .next s

/-- R130: RESET, TXDONE and NOP are accepted in every phase; TICK, ACT and DEACT only when the phase is not Announcing,
and while it is they are held and change nothing. -/
def Obligations.TickAndCommandsAreHeldWhileAnnouncing : Prop :=
  ∀ s : State,
    accepted .reset s.eng.phase = true ∧ accepted .txdone s.eng.phase = true ∧ accepted .nop s.eng.phase = true ∧
    ∀ (b : Bool) (raw : Byte) (g : CmdGate) (d : Fin 4),
      (accepted (.tick b raw) s.eng.phase = true ↔ s.eng.phase ≠ .announcing) ∧
      (accepted (.act g d) s.eng.phase = true ↔ s.eng.phase ≠ .announcing) ∧
      (accepted (.deact g d) s.eng.phase = true ↔ s.eng.phase ≠ .announcing) ∧
      (s.eng.phase = .announcing →
        exec (.tick b raw) s = .next s ∧ exec (.act g d) s = .next s ∧ exec (.deact g d) s = .next s)

/-- R90: ACT with all its cases and its frame. It completes whenever it is accepted. -/
def Obligations.ActPulsesOrLeavesItsDevice : Prop :=
  ∀ (s : State) (g : CmdGate) (d : Fin 4), s.eng.phase ≠ .announcing →
    ∃ t, exec (.act g d) s = .next t ∧
      (if (s.dev.get d).pos ≠ gateOfCmd g ∨ s.cfg.reassert = true then
        (t.dev.get d).pos = gateOfCmd g ∧ (t.dev.get d).hold = (s.dev.get d).hold ∧
        (t.dev.get d).rem = (s.dev.get d).hold ∧
        ((t.dev.get d).coilG = true ↔ g = .green ∧ 0 < (s.dev.get d).hold.toNat) ∧
        ((t.dev.get d).coilR = true ↔ g = .red ∧ 0 < (s.dev.get d).hold.toNat)
      else t.dev.get d = s.dev.get d) ∧
      (∀ e, e ≠ d → t.dev.get e = s.dev.get e) ∧ t.cfg = s.cfg ∧ t.ch = s.ch ∧ t.eng = s.eng ∧ t.txbuf = s.txbuf ∧
      t.txValid = s.txValid ∧ PortsKept s t ∧ t.free = s.free

/-- R95 (1): with `CFG.reassert = 0` a repeated identical ACT changes nothing. -/
def Obligations.RepeatedActivationChangesNothing : Prop :=
  ∀ (s t : State) (g : CmdGate) (d : Fin 4), s.cfg.reassert = false →
    exec (.act g d) s = .next t → exec (.act g d) t = .next t

/-- R63 with D36: the core does not look at the decoder address when it takes a command, ACT or DEACT (R132). -/
def Obligations.CommandsIgnoreTheDecoderAddress : Prop :=
  ∀ (i : Instr) (s t : State) (g : CmdGate) (d : Fin 4) (valid : Bool) (addr : BitVec 9) (x : Nat),
    (i = .act g d ∨ i = .deact g d) → exec i s = .next t →
    exec i { s with cfg := { s.cfg with daddrValid := valid, daddr := addr, xaddr := x } } =
      .next { t with cfg := { t.cfg with daddrValid := valid, daddr := addr, xaddr := x } }

/-- R133, whole: TXDONE is the word 0x3000, accepted in every phase, frees the slot and nothing else; while Announcing the
next ANNOUNCE then runs at once. -/
def Obligations.TxdoneFreesTheSlot : Prop :=
  decode 0x3000#16 = some .txdone ∧
  ∀ s : State, accepted .txdone s.eng.phase = true ∧
    (∃ t, exec .txdone s = .next t ∧ t.txbuf.busy = false ∧ t.txbuf.addr = s.txbuf.addr ∧
      t.txbuf.half = s.txbuf.half ∧ t.txbuf.data = s.txbuf.data ∧ t.cfg = s.cfg ∧ t.dev = s.dev ∧ t.ch = s.ch ∧
      t.eng = s.eng ∧ t.txValid = s.txValid ∧ PortsKept s t ∧ t.free = s.free ∧
      (s.eng.phase = .announcing → announceStep t = announce t)) ∧
    (s.txbuf.busy = false → exec .txdone s = .next s)

/-- R131: TICK is ACT_TICK, then SAMPLE, then TRY_SEND. It completes whenever it is accepted. -/
def Obligations.TickRunsItsThreePartsInOrder : Prop :=
  ∀ (s : State) (b : Bool) (raw : Byte), s.eng.phase ≠ .announcing →
    exec (.tick b raw) s = .next (trySend b (sample raw (actTick s)))

/-- R92, whole, as the effect of a TICK on the four devices. -/
def Obligations.TickCountsDownAndSwitchesCoilsOff : Prop :=
  ∀ (s : State) (b : Bool) (raw : Byte), s.eng.phase ≠ .announcing →
    ∃ t, exec (.tick b raw) s = .next t ∧ ∀ d,
      (t.dev.get d).pos = (s.dev.get d).pos ∧ (t.dev.get d).hold = (s.dev.get d).hold ∧
      (t.dev.get d).rem.toNat = (s.dev.get d).rem.toNat - 1 ∧
      (if (s.dev.get d).rem.toNat = 1 then (t.dev.get d).coilG = false ∧ (t.dev.get d).coilR = false
      else (t.dev.get d).coilG = (s.dev.get d).coilG ∧ (t.dev.get d).coilR = (s.dev.get d).coilR)

/-- R100, R102, R105 as the effect of a TICK on the eight channels: the send decision that follows touches neither the
window, the fill count, `stable` nor `pend`. -/
def Obligations.TickSamplesEveryChannel : Prop :=
  ∀ (s : State) (b : Bool) (raw : Byte), s.eng.phase ≠ .announcing →
    ∃ t, exec (.tick b raw) s = .next t ∧ ∀ c,
      (t.ch.get c).win.toNat = ((s.ch.get c).win.toNat * 2 + (raw.getLsbD c.val).toNat) % 256 ∧
      (t.ch.get c).fill.toNat = min ((s.ch.get c).fill.toNat + 1) 8 ∧
      ((t.ch.get c).stable = true ↔
        (t.ch.get c).fill = 8#4 ∧ ((t.ch.get c).win = 0x00#8 ∨ (t.ch.get c).win = 0xFF#8)) ∧
      (t.ch.get c).pend =
        (if (t.ch.get c).stable = true ∧ (s.ch.get c).stable = false ∧ raw.getLsbD c.val ≠ (s.ch.get c).rep then
          raw.getLsbD c.val else (s.ch.get c).pend)

/-- R131, R52, R56: what no TICK changes. That a TICK held while Announcing answers a next state, the same one, is the model's
(log entry 6, DEDUCED from R130). -/
def Obligations.TickLeavesConfigurationAndPorts : Prop :=
  ∀ (s : State) (b : Bool) (raw : Byte),
    ∃ t, exec (.tick b raw) s = .next t ∧ t.cfg = s.cfg ∧ PortsKept s t ∧ t.free = s.free ∧
      (fbEnabled s.cfg = false → t.eng = s.eng ∧ t.txbuf = s.txbuf ∧ t.txValid = s.txValid)

/-- R93, R95 (2): after an accepted ACT that pulses, with `hold > 0`, and any accepted events among which are n TICKs, no
RESET and no ACT for the same device that takes effect, `rem` is `hold - n` and the coil is on iff n < hold. The same of n
runs of ACT_TICK alone. -/
def Obligations.CoilPulseLastsHoldTicks : Prop :=
  (∀ (s t u : State) (g : CmdGate) (d : Fin 4) (events : List Instr), 0 < (s.dev.get d).hold.toNat →
    accepted (.act g d) s.eng.phase = true → ((s.dev.get d).pos ≠ gateOfCmd g ∨ s.cfg.reassert = true) →
    takeEvent (.act g d) s = .next t →
    (∀ i ∈ events, i ≠ .reset ∧ ∀ g', i = .act g' d → g' = g ∧ s.cfg.reassert = false) →
    takeAccepted events t = some u →
    let n := events.countP isTick
    (u.dev.get d).rem.toNat = (s.dev.get d).hold.toNat - n ∧ (u.dev.get d).pos = gateOfCmd g ∧
    ((u.dev.get d).coilG = true ↔ g = .green ∧ n < (s.dev.get d).hold.toNat) ∧
    ((u.dev.get d).coilR = true ↔ g = .red ∧ n < (s.dev.get d).hold.toNat)) ∧
  ∀ (s : State) (g : CmdGate) (d : Fin 4) (n : Nat), 0 < (s.dev.get d).hold.toNat →
    let v := ((actTick^[n] (s.modifyDev d fun v => v.pulse g)).dev.get d)
    v.rem.toNat = (s.dev.get d).hold.toNat - n ∧ v.pos = gateOfCmd g ∧
    (v.coilG = true ↔ g = .green ∧ n < (s.dev.get d).hold.toNat) ∧
    (v.coilR = true ↔ g = .red ∧ n < (s.dev.get d).hold.toNat)

/-! ### The sampler (42_feedback_sampler.md) -/

/-- R100, R102: SAMPLE on one channel, field by field; arming is edge-triggered. -/
def Obligations.SampleShiftsAndArmsOneChannel : Prop :=
  ∀ (v : Channel) (repeats : Byte) (b : Bool),
    (v.sample repeats b).win.toNat = (v.win.toNat * 2 + b.toNat) % 256 ∧
    (v.sample repeats b).fill.toNat = min (v.fill.toNat + 1) 8 ∧
    ((v.sample repeats b).stable = true ↔
      (v.sample repeats b).fill = 8#4 ∧ ((v.sample repeats b).win = 0x00#8 ∨ (v.sample repeats b).win = 0xFF#8)) ∧
    (v.sample repeats b).rep = v.rep ∧
    (if (v.sample repeats b).stable = true ∧ v.stable = false ∧ b ≠ v.rep then
      (v.sample repeats b).pend = b ∧ (v.sample repeats b).retx.toNat = repeats.toNat + 1
    else (v.sample repeats b).pend = v.pend ∧ (v.sample repeats b).retx = v.retx)

/-- R101: from RESET on, a channel is stable iff at least eight samples have been taken and the last eight are equal. -/
def Obligations.StableIffLastEightSamplesAgree : Prop :=
  ∀ (repeats : Byte) (samples : List Bool),
    (samples.foldl (fun v b => v.sample repeats b) Channel.reset).stable = true ↔
      8 ≤ samples.length ∧ ∃ b, samples.reverse.take 8 = List.replicate 8 b

/-- R167, from R102: a latched change that is not committed stays latched whatever the input does. -/
def Obligations.UncommittedChangeOutlivesItsInput : Prop :=
  ∀ (v : Channel) (repeats : Byte) (samples : List Bool), v.pend ≠ v.rep →
    (samples.foldl (fun v b => v.sample repeats b) v).pend = v.pend ∧
    (samples.foldl (fun v b => v.sample repeats b) v).rep = v.rep

/-- R106: a lane of SAMPLE reads its own sample, its own record and `CFG.retx` only; QUERY reads and COMMIT writes
the two lanes of the group only. -/
def Obligations.LanesAreIndependent : Prop :=
  (∀ (s t : State) (raw raw' : Byte) (c : Fin 8), raw.getLsbD c.val = raw'.getLsbD c.val →
    s.ch.get c = t.ch.get c → s.cfg.retx = t.cfg.retx → (sample raw s).ch.get c = (sample raw' t).ch.get c) ∧
  (∀ (f f' : ChFile) (g : Fin 4), (∀ c, groupOf c = g → f.get c = f'.get c) → query f g = query f' g) ∧
  (∀ (s t : State) (g : Fin 4) (c : Fin 8), s.ch.get c = t.ch.get c →
    (commit g s).ch.get c = (commit g t).ch.get c ∧ (groupOf c ≠ g → (commit g s).ch.get c = s.ch.get c))

/-- R103: the two formulas of QUERY of group g over the channels 2g and 2g + 1. That it writes nothing holds by its type. -/
def Obligations.QueryReportsStabilityAndChange : Prop :=
  ∀ (f : ChFile) (g : Fin 4),
    ((query f g).allStable = true ↔ ∀ c, groupOf c = g → (f.get c).stable = true) ∧
    ((query f g).anyChanged = true ↔ ∃ c, groupOf c = g ∧ 0 < (f.get c).retx.toNat)

/-- R104: COMMIT of group g, with its frame. -/
def Obligations.CommitFlushesExactlyOneGroup : Prop :=
  ∀ (s : State) (g : Fin 4),
    (∀ c, if groupOf c = g then
        ((commit g s).ch.get c).rep = (s.ch.get c).pend ∧
        ((commit g s).ch.get c).retx.toNat = (s.ch.get c).retx.toNat - 1 ∧
        ((commit g s).ch.get c).win = (s.ch.get c).win ∧ ((commit g s).ch.get c).fill = (s.ch.get c).fill ∧
        ((commit g s).ch.get c).stable = (s.ch.get c).stable ∧ ((commit g s).ch.get c).pend = (s.ch.get c).pend
      else (commit g s).ch.get c = s.ch.get c) ∧
    (commit g s).cfg = s.cfg ∧ (commit g s).dev = s.dev ∧ (commit g s).eng = s.eng ∧ (commit g s).txbuf = s.txbuf ∧
    (commit g s).txValid = s.txValid ∧ PortsKept s (commit g s) ∧ (commit g s).free = s.free

/-- R107: an armed channel is committed until its count is used up: after n commits `retx` is down by n, floor 0. -/
def Obligations.CommitsCountDownToZero : Prop :=
  ∀ (v : Channel) (n : Nat),
    (Channel.commit^[n] v).retx.toNat = v.retx.toNat - n ∧ (Channel.commit^[n] v).pend = v.pend ∧
    (0 < n → (Channel.commit^[n] v).rep = v.pend)

/-! ### The protocol engine (43_feedback_protocol_engine.md) -/

/-- R111, whole: target address and half of each group; where feedback is enabled the address stays in 1 to 128. -/
def Obligations.GroupsHaveTheirTargets : Prop :=
  ∀ (c : Cfg) (g : Fin 4),
    (c.split = false → groupAddr c g = c.fbAddr ∧ (groupHalf c g = true ↔ g.val = 2 ∨ g.val = 3)) ∧
    (c.split = true → (groupHalf c g = true ↔ g.val = 1 ∨ g.val = 3) ∧
      (c.fbAddr.toNat ≤ 128 → (groupAddr c g).toNat = c.fbAddr.toNat + g.val / 2)) ∧
    (c.fbAddr.toNat ≤ 128 → fbEnabled c = true → 1 ≤ (groupAddr c g).toNat ∧ (groupAddr c g).toNat ≤ 128)

/-- R112, whole: channel c stands at data bit c mod 4 of its telegram; non-split, a telegram carries the four channels of its
half; split, it carries its two channels and 0 in the other two bits. -/
def Obligations.TelegramsCarryPendingBits : Prop :=
  ∀ (c : Cfg) (f : ChFile) (g : Fin 4) (k : Fin 8),
    (c.split = false → k.val / 4 = g.val / 2 →
      (groupTelegram c f g).data.getLsbD (k.val % 4) = (f.get k).pend) ∧
    (c.split = true → k.val / 2 = g.val → (groupTelegram c f g).data.getLsbD (k.val % 4) = (f.get k).pend) ∧
    (c.split = true → k.val / 2 ≠ g.val → k.val / 4 = g.val / 2 →
      (groupTelegram c f g).data.getLsbD (k.val % 4) = false)

/-- R113: SEND fills the slot with the telegram of the group and pulses `tx_valid` (a Boolean, the model's choice: log entry
10); nothing else changes. -/
def Obligations.SendFillsTheSlot : Prop :=
  ∀ (s : State) (g : Fin 4), s.txbuf.busy = false →
    (send g s).txbuf.busy = true ∧ (send g s).txbuf.telegram = groupTelegram s.cfg s.ch g ∧
    sentWord (send g s) = some (groupTelegram s.cfg s.ch g).word ∧ (send g s).cfg = s.cfg ∧ (send g s).dev = s.dev ∧
    (send g s).ch = s.ch ∧ (send g s).eng = s.eng ∧ PortsKept s (send g s) ∧ (send g s).free = s.free

/-- R114: when feedback is enabled, and that TRY_SEND does nothing when it is not. -/
def Obligations.DisabledFeedbackSendsNothing : Prop :=
  ∀ s : State,
    (fbEnabled s.cfg = true ↔ s.cfg.fbAddr.toNat ≠ 0 ∧ (s.cfg.split = false ∨ s.cfg.fbAddr.toNat ≤ 127)) ∧
    (fbEnabled s.cfg = false → ∀ b, trySend b s = s)

/-- R116, R117: TRY_SEND with the bus inactive, and the join guard. -/
def Obligations.TrySendDisconnectsAndJoins : Prop :=
  ∀ s : State, fbEnabled s.cfg = true →
    trySend false s = { s with eng := { s.eng with phase := .disconnected } } ∧
    (s.eng.phase = .disconnected →
      if ∀ c, (s.ch.get c).stable = true then trySend true s = { s with eng := { phase := .announcing, idx := 0 } }
      else trySend true s = s)

/-- R118: one ANNOUNCE. It is enabled iff the phase is Announcing and the slot free; it sends the group of `ENG.idx`,
advances, and commits nothing. -/
def Obligations.AnnounceSendsOneGroupAndAdvances : Prop :=
  ∀ s : State,
    (announceEnabled s = true ↔ s.eng.phase = .announcing ∧ s.txbuf.busy = false) ∧
    (announceEnabled s = false → announceStep s = s) ∧
    (announceEnabled s = true →
      (announceStep s).txbuf.busy = true ∧
      sentWord (announceStep s) = some (groupTelegram s.cfg s.ch s.eng.idx).word ∧
      (if s.eng.idx = 3 then (announceStep s).eng.phase = .connected ∧ (announceStep s).eng.idx = 3
      else (announceStep s).eng.phase = .announcing ∧ (announceStep s).eng.idx.val = s.eng.idx.val + 1) ∧
      (announceStep s).cfg = s.cfg ∧ (announceStep s).dev = s.dev ∧ (announceStep s).ch = s.ch ∧
      PortsKept s (announceStep s) ∧ (announceStep s).free = s.free)

/-- R119: the Connected scan declines when the slot is busy, else serves the first group in ascending order that is stable
and changed, else does nothing. -/
def Obligations.ScanServesTheFirstEligibleGroup : Prop :=
  ∀ s : State, fbEnabled s.cfg = true → s.eng.phase = .connected →
    (s.txbuf.busy = true → trySend true s = s) ∧
    (s.txbuf.busy = false → ∀ g : Fin 4,
      ((query s.ch g).allStable = true ∧ (query s.ch g).anyChanged = true) →
      (∀ h : Fin 4, h < g → ¬ ((query s.ch h).allStable = true ∧ (query s.ch h).anyChanged = true)) →
      trySend true s = commit g (send g s)) ∧
    (s.txbuf.busy = false →
      (∀ g : Fin 4, ¬ ((query s.ch g).allStable = true ∧ (query s.ch g).anyChanged = true)) → trySend true s = s)

/-- R121, the table of phase transitions: RESET, TRY_SEND row by row, ANNOUNCE; no other event changes the phase. -/
def Obligations.PhaseTransitionTable : Prop :=
  (∀ s t : State, exec .reset s = .next t → t.eng.phase = .disconnected) ∧
  (∀ (s : State) (b : Bool), EngineInv s →
    (s.eng.phase = .disconnected →
      (trySend b s).eng.phase =
        if fbEnabled s.cfg = true ∧ b = true ∧ ∀ c, (s.ch.get c).stable = true then .announcing else .disconnected) ∧
    (s.eng.phase = .connected → (trySend b s).eng.phase = if b then .connected else .disconnected)) ∧
  (∀ s : State, announceEnabled s = true →
    (announce s).eng.phase = (if s.eng.idx.val < 3 then .announcing else .connected) ∧
    (s.eng.idx.val < 3 → (announce s).eng.idx.val = s.eng.idx.val + 1)) ∧
  (∀ (s t : State) (g : CmdGate) (d : Fin 4),
    (exec .nop s = .next t ∨ exec .txdone s = .next t ∨ exec (.act g d) s = .next t ∨ exec (.deact g d) s = .next t) →
    t.eng.phase = s.eng.phase)

/-- R121, over whole steps: Connected is reached only through Announcing, and Announcing is left for Disconnected only by
RESET. -/
def Obligations.ConnectedOnlyThroughAnnouncing : Prop :=
  ∀ s t : State, step s = .next t →
    (s.eng.phase = .disconnected → t.eng.phase ≠ .connected) ∧
    (s.eng.phase = .announcing → t.eng.phase = .disconnected → ∃ u, fetch s = .event .reset u)

/-- R120, R123: from the entry into Announcing with the slot free, the eager step and three TXDONEs hand over the
telegrams of the groups 0, 1, 2, 3 in order, end Connected with the slot busy, and commit nothing. That one step is one
event with its ANNOUNCE is log entry 9. -/
def Obligations.HandshakeAnnouncesEveryGroupInOrder : Prop :=
  ∀ s : State, s.eng = { phase := .announcing, idx := 0 } → s.txbuf.busy = false →
    ∃ t1 t2 t3,
      takeEvent .txdone (announceStep s) = .next t1 ∧ takeEvent .txdone t1 = .next t2 ∧ takeEvent .txdone t2 = .next t3 ∧
      sentWord (announceStep s) = some (groupTelegram s.cfg s.ch 0).word ∧
      sentWord t1 = some (groupTelegram s.cfg s.ch 1).word ∧ sentWord t2 = some (groupTelegram s.cfg s.ch 2).word ∧
      sentWord t3 = some (groupTelegram s.cfg s.ch 3).word ∧
      t1.eng.phase = .announcing ∧ t2.eng.phase = .announcing ∧ t3.eng.phase = .connected ∧ t3.txbuf.busy = true ∧
      t3.ch = s.ch ∧ t3.dev = s.dev ∧ t3.cfg = s.cfg

/-- R166: without TXDONE and RESET the busy-wait lasts for ever: from Announcing with the slot busy,
every step that takes neither ends Announcing with the slot busy, the same group, devices, channels and configuration; so does
every number of steps where neither stands in the trace or is pending; and at a held event no number of steps changes
anything. That a held event is a step that changes nothing is log entry 6, the idle step of an empty trace log entry 5. -/
def Obligations.BusyWaitHangsWithoutTxdone : Prop :=
  (∀ s t : State, s.eng.phase = .announcing → s.txbuf.busy = true → (∀ u, fetch s ≠ .event .reset u) →
    (∀ u, fetch s ≠ .event .txdone u) → step s = .next t →
    t.eng = s.eng ∧ t.txbuf = s.txbuf ∧ t.dev = s.dev ∧ t.ch = s.ch ∧ t.cfg = s.cfg) ∧
  (∀ (s : State) (n : Nat), s.eng.phase = .announcing → s.txbuf.busy = true → s.strobes.rst = false →
    s.strobes.txDone = false → (∀ l ∈ s.trace, ∃ i, decode l.word = some i ∧ i ≠ .reset ∧ i ≠ .txdone) →
    ∃ t : State, Sys2Proof.core.run n s = .next t ∧
      t.eng = s.eng ∧ t.txbuf = s.txbuf ∧ t.dev = s.dev ∧ t.ch = s.ch ∧ t.cfg = s.cfg) ∧
  ∀ (s : State) (l : TraceLine) (rest : List TraceLine) (i : Instr) (n : Nat),
    s.eng.phase = .announcing → s.txbuf.busy = true → s.strobes.rst = false → s.strobes.txDone = false →
    s.trace = l :: rest →
    decode l.word = some i → (i.mnemonic = "TICK" ∨ i.mnemonic = "ACT" ∨ i.mnemonic = "DEACT") →
    Sys2Proof.core.run n s = .next s

/-! ### Steps (44_event_dispatch.md, 60_exceptions.md) -/

/-- R135, R136: with no acceptable strobe pending, a step gives up the first line of the trace, presents the CFGMEM bytes
the line gives, runs the event it decodes to, if accepted, and then the eager ANNOUNCE; `tx_valid` falls first. The trace as
state, the discarding by a RESET, the ANNOUNCE inside the step, `tx_valid` as a Boolean and the bytes beside a word are the
model's (log entries 5, 8, 9, 10, 12). With nothing pending and an empty trace the step takes NOP (R134, log entry 5). -/
def Obligations.StepRunsTheDecodedEvent : Prop :=
  (∀ (s : State) (l : TraceLine) (rest : List TraceLine) (i : Instr),
    nextStrobe s = none → s.trace = l :: rest → decode l.word = some i → i.wellFormed = true →
    accepted i s.eng.phase = true →
    ∃ t, exec i ((((s.setTrace rest).presentCfg l.cfg).discardFor i).setTxValid false) = .next t ∧
      step s = .next (announceStep t)) ∧
  ∀ s : State, nextStrobe s = none → s.trace = [] →
    step s = takeEvent .nop s ∧ step s = .next (announceStep (s.setTxValid false))

/-- R136, R130: a held event blocks the trace and changes nothing; that this is a step is the model's (log entry 6). -/
def Obligations.HeldEventBlocksTheTrace : Prop :=
  ∀ (s : State) (l : TraceLine) (rest : List TraceLine) (i : Instr),
    nextStrobe s = none → s.trace = l :: rest → decode l.word = some i → accepted i s.eng.phase = false →
    step s = .next s

/-- R71: a reserved word is refused by name. -/
def Obligations.ReservedWordIsRefused : Prop :=
  ∀ (s : State) (l : TraceLine) (rest : List TraceLine),
    nextStrobe s = none → s.trace = l :: rest → decode l.word = none →
    step s = .refused (.reservedWord l.word)

/-- R140, R71: no step faults, and a step refuses nothing but reserved words. -/
def Obligations.StepsNeverFault : Prop :=
  ∀ s : State, (∀ f, step s ≠ .fault f) ∧ ∀ r, step s = .refused r → ∃ w, r = .reservedWord w ∧ decode w = none

/-- R146, R132: pending strobes are taken RESET first, then TXDONE, then TICK, then the command; the TICK with the levels at
its ports as they stand then (R62). That they stand in State and
go before the trace is the model's choice (log entry 7). -/
def Obligations.PendingStrobesAreTakenInOrder : Prop :=
  ∀ s : State,
    (s.strobes.rst = true → step s = takeEvent .reset (s.setStrobes { s.strobes with rst := false })) ∧
    (s.strobes.rst = false → s.strobes.txDone = true →
      step s = takeEvent .txdone (s.setStrobes { s.strobes with txDone := false })) ∧
    (s.strobes.rst = false → s.strobes.txDone = false → s.eng.phase ≠ .announcing → s.strobes.tick = true →
      step s = takeEvent (.tick s.levels.busActive s.levels.raw) (s.setStrobes { s.strobes with tick := false })) ∧
    (s.strobes.rst = false → s.strobes.txDone = false → s.eng.phase ≠ .announcing → s.strobes.tick = false →
      ∀ c, s.strobes.cmd = some c →
      step s = takeEvent (if c.activate then .act c.gate c.device else .deact c.gate c.device)
        (s.setStrobes { s.strobes with cmd := none }))

/-- R130: while the phase is Announcing, a TICK or command pending at its port stays there, whatever else is taken but
RESET (the ports in State: log entry 7). -/
def Obligations.HeldStrobesStayPending : Prop :=
  ∀ s t : State, s.eng.phase = .announcing → (∀ u, fetch s ≠ .event .reset u) → step s = .next t →
    t.strobes.tick = s.strobes.tick ∧ t.strobes.cmd = s.strobes.cmd

/-- R62, R130: a TICK pending at its port through the end of the handshake is taken with the levels `raw` and `bus_active` that
stand at the ports when it is taken, whatever they were while it was held (the ports in State: log entries 7 and 19). -/
def Obligations.HeldTickReadsTheLevelsWhenTaken : Prop :=
  ∀ (s : State) (l : InputLevels), s.eng = { phase := .announcing, idx := 3 } → s.strobes.rst = false →
    s.strobes.txDone = true → s.strobes.tick = true →
    ∃ t, step s = .next t ∧ t.eng.phase = .connected ∧ t.strobes.tick = true ∧
      step (t.setLevels l) =
        takeEvent (.tick l.busActive l.raw) ((t.setStrobes { t.strobes with tick := false }).setLevels l)

/-! ### RESET and the resolver (70_reset_and_hazards.md, 40_address_resolver.md) -/

/-- R81, R82, whole, as the effect of RESET: addition, not or; three conditions, in both modes; bits [6:3] of the high
byte ignored. -/
def Obligations.ResetResolvesTheDecoderAddress : Prop :=
  ∀ s : State, ∃ t, exec .reset s = .next t ∧
    let lo := (s.cfgmem.byteAt 0).toNat
    let hi := s.cfgmem.byteAt 1
    let mode := (s.cfgmem.byteAt 2).getLsbD 0
    let composed := lo + (hi.toNat % 8) * (if mode then 256 else 64)
    composed ≤ 2047 ∧ t.cfg.mode.toBit = mode ∧
    (t.cfg.daddrValid = true ↔ lo ≤ 63 ∧ hi.getLsbD 7 = false ∧ composed ≤ 511) ∧
    (t.cfg.daddrValid = true → t.cfg.daddr.toNat = composed) ∧ (t.cfg.daddrValid = false → t.cfg.daddr = 0#9)

/-- R83, whole, as the effect of RESET. -/
def Obligations.ResetNormalisesTheFeedbackAddress : Prop :=
  ∀ s : State, ∃ t, exec .reset s = .next t ∧
    t.cfg.fbAddr.toNat = (if (s.cfgmem.byteAt 7).toNat > 128 then 0 else (s.cfgmem.byteAt 7).toNat) ∧
    t.cfg.fbAddr.toNat ≤ 128

/-- R84 as the effect of RESET, for any value of the two open parameters (log entry 4): a real result lies from XCMD_OFFSET to XCMD_MAX,
any other case gives the sentinel one below the offset. -/
def Obligations.ResetResolvesTheExtendedAddress : Prop :=
  1 ≤ Config.xcmdOffset ∧ Config.xcmdOffset ≤ Config.xcmdMax ∧
  ∀ s : State, ∃ t, exec .reset s = .next t ∧
    (if t.cfg.daddrValid = true ∧ t.cfg.daddr.toNat + Config.xcmdOffset ≤ Config.xcmdMax then
      t.cfg.xaddr = t.cfg.daddr.toNat + Config.xcmdOffset ∧ Config.xcmdOffset ≤ t.cfg.xaddr
    else t.cfg.xaddr = Config.xcmdOffset - 1 ∧ t.cfg.xaddr < Config.xcmdOffset)

/-- R160, R32: RESET completes in every state and installs every record; the slot's contents are left open (log entry 3).
That the strobes, the trace and `tx_valid` are as before is the model's choice: the discarding of R146 stands in
`State.raise` and `State.discardFor` (log entry 8), a held word of the trace stays (log entry 18), and `tx_valid` falls in
`takeEvent` (log entry 10). -/
def Obligations.ResetInstallsEveryRecord : Prop :=
  ∀ s : State, ∃ t, exec .reset s = .next t ∧
    t.cfg.split = (s.cfgmem.byteAt 8).getLsbD 0 ∧ t.cfg.retx = s.cfgmem.byteAt 9 ∧
    t.cfg.reassert = (s.cfgmem.byteAt 10).getLsbD 0 ∧
    (∀ d : Fin 4, t.dev.get d =
      { pos := .unknown, hold := s.cfgmem.byteAt (3 + d.val), rem := 0#8, coilG := false, coilR := false }) ∧
    (∀ c : Fin 8, t.ch.get c =
      { win := 0x00#8, fill := 0#4, stable := false, rep := false, pend := false, retx := 0#9 }) ∧
    t.eng = { phase := .disconnected, idx := 0 } ∧ t.txbuf.busy = false ∧ t.txValid = s.txValid ∧ PortsKept s t

/-- R160: two RESETs with the same CFGMEM give the same state whatever preceded them, but for the slot's contents, which
it leaves unspecified. -/
def Obligations.ResetForgetsWhatPrecededIt : Prop :=
  ∀ s s' t t' : State, (∀ i, s.cfgmem.read i = s'.cfgmem.read i) → exec .reset s = .next t → exec .reset s' = .next t' →
    t.cfg = t'.cfg ∧ t.dev = t'.dev ∧ t.ch = t'.ch ∧ t.eng = t'.eng ∧ t.txbuf.busy = t'.txbuf.busy

/-- The model's choice (log entries 1 and 2): `State.reset` is what RESET gives with a CFGMEM of zero bytes, but for the
slot's contents, and its slot holds zeros. -/
def Obligations.ResetStateIsResetOfAnEmptyStore : Prop :=
  ∃ t, exec .reset State.reset = .next t ∧ t.cfg = State.reset.cfg ∧ t.dev = State.reset.dev ∧
    t.ch = State.reset.ch ∧ t.eng = State.reset.eng ∧ t.txbuf.busy = State.reset.txbuf.busy ∧
    State.reset.txbuf.telegram = { addr := 0#8, half := false, data := 0#4 }

/-- R85, whole: under Basic addressing the valid addresses are exactly 0 to 511 and the third condition never decides;
under Extended they are exactly 0 to 63 and 256 to 319, and high bits of 2 and more are always Invalid. -/
def Obligations.ReachableDecoderAddresses : Prop :=
  (∀ n, (∃ lo hi, addrValid .basic lo hi = true ∧ composedAddr .basic lo hi = n) ↔ n ≤ 511) ∧
  (∀ lo hi : Byte, lo.toNat ≤ 63 → composedAddr .basic lo hi ≤ 511) ∧
  (∀ n, (∃ lo hi, addrValid .extended lo hi = true ∧ composedAddr .extended lo hi = n) ↔
    n ≤ 63 ∨ (256 ≤ n ∧ n ≤ 319)) ∧
  (∀ lo hi : Byte, 2 ≤ hi.toNat % 8 → addrValid .extended lo hi = false)

/-! ### CFGMEM (20_memory.md) -/

/-- R41: an index above 10 faults, for a read and for a write; a canonical CFGMEM stays canonical, reads back the byte
written and reads every other byte as before. R68: eleven bytes given beside a RESET stand at their indices. The canonical
form, the fault and the write are the model's choice (log entry 11). -/
def Obligations.ConfigurationStoreReadsBackWrites : Prop :=
  (∀ (m : Memory) (i : Nat) (b : Byte), 10 < i →
    m.read i = .error (.cfgmemIndex i) ∧ m.write i b = .error (.cfgmemIndex i)) ∧
  (∀ (m : Memory) (i : Nat) (b : Byte), i ≤ 10 → m.wf = true →
    ∃ m', m.write i b = .ok m' ∧ m'.wf = true ∧ m'.read i = .ok b ∧ ∀ j, j ≠ i → m'.read j = m.read j) ∧
  ∀ b : CfgBytes, (Memory.ofCfg b).wf = true ∧ loadCfg (Memory.ofCfg b) = .ok b

/-- R11, R56, R164: CFG and the hold times change only in a step that takes RESET. -/
def Obligations.ConfigurationChangesOnlyAtReset : Prop :=
  ∀ s t : State, (∀ u, fetch s ≠ .event .reset u) → step s = .next t →
    t.cfg = s.cfg ∧ ∀ d, (t.dev.get d).hold = (s.dev.get d).hold

/-- R56: the running core never sees CFGMEM: every event but RESET does the same whatever its bytes are. -/
def Obligations.RunningCoreNeverSeesTheStore : Prop :=
  ∀ (i : Instr) (s t : State) (m : Memory), i ≠ .reset → exec i s = .next t →
    exec i (s.setCfgmem m) = .next (t.setCfgmem m)

/-- R105: the channel file changes only by TICK and RESET, and after the sampling a TICK touches only `rep` and `retx`. -/
def Obligations.OnlyTickAndResetWriteChannels : Prop :=
  (∀ (i : Instr) (s t : State), exec i s = .next t → i ≠ .reset → (∀ b raw, i ≠ .tick b raw) → t.ch = s.ch) ∧
  (∀ (s : State) (b : Bool) (c : Fin 8),
    ((trySend b s).ch.get c).win = (s.ch.get c).win ∧ ((trySend b s).ch.get c).fill = (s.ch.get c).fill ∧
    ((trySend b s).ch.get c).stable = (s.ch.get c).stable ∧ ((trySend b s).ch.get c).pend = (s.ch.get c).pend)

/-! ### Invariants (10_state.md) -/

/-- R28, whole: the device invariant holds at reset and every step keeps it. -/
def Obligations.StepsKeepTheDeviceInvariant : Prop :=
  (∀ d, DeviceInv (State.reset.dev.get d)) ∧
  ∀ s t : State, (∀ d, DeviceInv (s.dev.get d)) → step s = .next t → ∀ d, DeviceInv (t.dev.get d)

/-- R29: the channel invariant holds at reset and every step keeps it. -/
def Obligations.StepsKeepTheChannelInvariant : Prop :=
  (∀ c, ChannelInv State.reset.cfg.retx (State.reset.ch.get c)) ∧
  ∀ s t : State, (∀ c, ChannelInv s.cfg.retx (s.ch.get c)) → step s = .next t →
    ∀ c, ChannelInv t.cfg.retx (t.ch.get c)

/-- R30: the engine invariant holds at reset and every step keeps it; no phase and no position has the encoding 3. -/
def Obligations.StepsKeepTheEngineInvariant : Prop :=
  EngineInv State.reset ∧ (∀ s t : State, EngineInv s → step s = .next t → EngineInv t) ∧
  (∀ p : Phase, p.bits.toNat ≤ 2) ∧ ∀ p : Gate, p.bits.toNat ≤ 2

/-- R11, R28 to R30, R43, R135 and the canonical form of CFGMEM together: every step keeps them all, from every state
that meets them. -/
def Obligations.StepsKeepEveryInvariant : Prop :=
  ∀ s t : State, Inv s → step s = .next t → Inv t

/-- The reset state meets every invariant. -/
def Obligations.ResetStateMeetsEveryInvariant : Prop := Inv State.reset

/-- R26, R95 (3): in a state that meets the device invariant, the coil outputs of a device are never both 1, and `ready`
falls exactly while a TICK would be held. -/
def Obligations.OutputsNeverDriveBothCoils : Prop :=
  ∀ s : State, (∀ d, DeviceInv (s.dev.get d)) →
    (outputs s).coilG &&& (outputs s).coilR = 0#4 ∧
    ∀ b raw, (outputs s).ready = accepted (.tick b raw) s.eng.phase
end

