-- ==== Sys2Proof/Laws/Memory.lean ====
section
/-! SUPPORT. CFGMEM: its canonical form is kept by every operation, a read after a write gives the byte written, a write
leaves every other byte alone. -/

namespace Sys2Proof.Machine

theorem Memory.wfFrom_cons {lo k : Nat} {v : Byte} {rest : Memory} :
    Memory.wfFrom lo ((k, v) :: rest) = true ↔
      lo ≤ k ∧ k < Config.cfgSize ∧ v ≠ Memory.unlisted ∧ Memory.wfFrom (k + 1) rest = true := by
  simp [Memory.wfFrom, and_assoc]

theorem Memory.wfFrom_mono {lo lo' : Nat} {m : Memory} (h : Memory.wfFrom lo m = true) (hle : lo' ≤ lo) :
    Memory.wfFrom lo' m = true := by
  cases m with
  | nil => rfl
  | cons e rest =>
    obtain ⟨k, v⟩ := e
    obtain ⟨h1, h2⟩ := Memory.wfFrom_cons.mp h
    exact Memory.wfFrom_cons.mpr ⟨hle.trans h1, h2⟩

/-- Below the first index it may list, a canonical memory reads as unlisted. -/
theorem Memory.byteAt_below {lo i : Nat} {m : Memory} (h : Memory.wfFrom lo m = true) (hi : i < lo) :
    m.byteAt i = Memory.unlisted := by
  induction m generalizing lo with
  | nil => rfl
  | cons e rest ih =>
    obtain ⟨k, v⟩ := e
    obtain ⟨h1, -, -, h4⟩ := Memory.wfFrom_cons.mp h
    rw [Memory.byteAt, if_neg (by omega)]
    exact ih h4 (by omega)

/-- Storing a byte at an index of the store keeps the canonical form. -/
theorem Memory.wfFrom_put {lo i : Nat} {m : Memory} (b : Byte) (h : Memory.wfFrom lo m = true) (hlo : lo ≤ i)
    (hi : i < Config.cfgSize) : Memory.wfFrom lo (m.put i b) = true := by
  induction m generalizing lo with
  | nil =>
    unfold Memory.put
    split
    · rfl
    · exact Memory.wfFrom_cons.mpr ⟨hlo, hi, ‹_›, rfl⟩
  | cons e rest ih =>
    obtain ⟨k, v⟩ := e
    obtain ⟨h1, h2, h3, h4⟩ := Memory.wfFrom_cons.mp h
    unfold Memory.put
    split
    · split
      · exact h
      · exact Memory.wfFrom_cons.mpr ⟨hlo, hi, ‹_›, Memory.wfFrom_cons.mpr ⟨by omega, h2, h3, h4⟩⟩
    · split
      · split
        · exact Memory.wfFrom_mono h4 (by omega)
        · exact Memory.wfFrom_cons.mpr ⟨hlo, hi, ‹_›, by subst i; exact h4⟩
      · exact Memory.wfFrom_cons.mpr ⟨h1, h2, h3, ih h4 (by omega)⟩

theorem Memory.byteAt_put_same {lo i : Nat} {m : Memory} (b : Byte) (h : Memory.wfFrom lo m = true) :
    (m.put i b).byteAt i = b := by
  induction m generalizing lo with
  | nil =>
    unfold Memory.put
    split
    · exact (‹b = Memory.unlisted›).symm
    · simp [Memory.byteAt]
  | cons e rest ih =>
    obtain ⟨k, v⟩ := e
    obtain ⟨-, -, -, h4⟩ := Memory.wfFrom_cons.mp h
    unfold Memory.put
    split
    · split
      · rw [Memory.byteAt, if_neg (by omega), Memory.byteAt_below h4 (by omega)]
        exact (‹b = Memory.unlisted›).symm
      · simp [Memory.byteAt]
    · split
      · split
        · rw [Memory.byteAt_below h4 (by omega)]
          exact (‹b = Memory.unlisted›).symm
        · simp [Memory.byteAt]
      · rw [Memory.byteAt, if_neg (by omega)]
        exact ih h4

theorem Memory.byteAt_put_other {i j : Nat} (m : Memory) (b : Byte) (h : j ≠ i) :
    (m.put i b).byteAt j = m.byteAt j := by
  induction m with
  | nil => unfold Memory.put; split <;> simp [Memory.byteAt, h.symm]
  | cons e rest ih =>
    obtain ⟨k, v⟩ := e
    unfold Memory.put
    split
    · split <;> simp [Memory.byteAt, h.symm]
    · split
      · subst i
        split <;> simp [Memory.byteAt, h.symm]
      · simp [Memory.byteAt, ih]

/-- Everything a write of one byte can do. -/
theorem Memory.write_cases {m m' : Memory} {i : Nat} {b : Byte} (h : m.write i b = .ok m') :
    i < Config.cfgSize ∧ m' = m.put i b := by
  unfold Memory.write at h
  split at h
  · exact ⟨‹_›, (Except.ok.inj h).symm⟩
  · cases h

theorem Memory.wf_write {m m' : Memory} {i : Nat} {b : Byte} (hm : m.wf = true) (h : m.write i b = .ok m') :
    m'.wf = true := by
  obtain ⟨hi, rfl⟩ := Memory.write_cases h
  exact Memory.wfFrom_put b hm (Nat.zero_le i) hi

@[simp] theorem Memory.read_in_range {i : Nat} (m : Memory) (h : i < Config.cfgSize) : m.read i = .ok (m.byteAt i) := by
  simp [Memory.read, h]

theorem Memory.wf_ofCfg (b : CfgBytes) : (Memory.ofCfg b).wf = true := by
  have fold : ∀ (es : List Host.Cell) (m : Memory), m.wf = true → (∀ e ∈ es, e.1 < Config.cfgSize) →
      (es.foldl (fun m (e : Host.Cell) => Memory.put m e.1 e.2) m).wf = true := by
    intro es
    induction es with
    | nil => exact fun m h _ => h
    | cons e rest ih =>
      intro m h he
      exact ih _ (Memory.wfFrom_put e.2 h (Nat.zero_le _) (he e (by simp))) fun x hx => he x (by simp [hx])
  exact fold _ [] rfl (by simp [Config.cfgSize])

end Sys2Proof.Machine
end

