-- ==== Sys2Proof/Laws/State.lean ====
section
/-! SUPPORT. One lemma per field per update of the state, and the laws of the device and channel files. -/

namespace Sys2Proof.Machine

@[simp] theorem State.setDev_cfg (s : State) (f : DevFile) : (s.setDev f).cfg = s.cfg := rfl
@[simp] theorem State.setDev_dev (s : State) (f : DevFile) : (s.setDev f).dev = f := rfl
@[simp] theorem State.setDev_ch (s : State) (f : DevFile) : (s.setDev f).ch = s.ch := rfl
@[simp] theorem State.setDev_eng (s : State) (f : DevFile) : (s.setDev f).eng = s.eng := rfl
@[simp] theorem State.setDev_txbuf (s : State) (f : DevFile) : (s.setDev f).txbuf = s.txbuf := rfl
@[simp] theorem State.setDev_txValid (s : State) (f : DevFile) : (s.setDev f).txValid = s.txValid := rfl
@[simp] theorem State.setDev_cfgmem (s : State) (f : DevFile) : (s.setDev f).cfgmem = s.cfgmem := rfl
@[simp] theorem State.setDev_strobes (s : State) (f : DevFile) : (s.setDev f).strobes = s.strobes := rfl
@[simp] theorem State.setDev_levels (s : State) (f : DevFile) : (s.setDev f).levels = s.levels := rfl
@[simp] theorem State.setDev_trace (s : State) (f : DevFile) : (s.setDev f).trace = s.trace := rfl
@[simp] theorem State.setDev_free (s : State) (f : DevFile) : (s.setDev f).free = s.free := rfl

@[simp] theorem State.setCh_cfg (s : State) (f : ChFile) : (s.setCh f).cfg = s.cfg := rfl
@[simp] theorem State.setCh_dev (s : State) (f : ChFile) : (s.setCh f).dev = s.dev := rfl
@[simp] theorem State.setCh_ch (s : State) (f : ChFile) : (s.setCh f).ch = f := rfl
@[simp] theorem State.setCh_eng (s : State) (f : ChFile) : (s.setCh f).eng = s.eng := rfl
@[simp] theorem State.setCh_txbuf (s : State) (f : ChFile) : (s.setCh f).txbuf = s.txbuf := rfl
@[simp] theorem State.setCh_txValid (s : State) (f : ChFile) : (s.setCh f).txValid = s.txValid := rfl
@[simp] theorem State.setCh_cfgmem (s : State) (f : ChFile) : (s.setCh f).cfgmem = s.cfgmem := rfl
@[simp] theorem State.setCh_strobes (s : State) (f : ChFile) : (s.setCh f).strobes = s.strobes := rfl
@[simp] theorem State.setCh_levels (s : State) (f : ChFile) : (s.setCh f).levels = s.levels := rfl
@[simp] theorem State.setCh_trace (s : State) (f : ChFile) : (s.setCh f).trace = s.trace := rfl
@[simp] theorem State.setCh_free (s : State) (f : ChFile) : (s.setCh f).free = s.free := rfl

@[simp] theorem State.setEng_cfg (s : State) (e : Engine) : (s.setEng e).cfg = s.cfg := rfl
@[simp] theorem State.setEng_dev (s : State) (e : Engine) : (s.setEng e).dev = s.dev := rfl
@[simp] theorem State.setEng_ch (s : State) (e : Engine) : (s.setEng e).ch = s.ch := rfl
@[simp] theorem State.setEng_eng (s : State) (e : Engine) : (s.setEng e).eng = e := rfl
@[simp] theorem State.setEng_txbuf (s : State) (e : Engine) : (s.setEng e).txbuf = s.txbuf := rfl
@[simp] theorem State.setEng_txValid (s : State) (e : Engine) : (s.setEng e).txValid = s.txValid := rfl
@[simp] theorem State.setEng_cfgmem (s : State) (e : Engine) : (s.setEng e).cfgmem = s.cfgmem := rfl
@[simp] theorem State.setEng_strobes (s : State) (e : Engine) : (s.setEng e).strobes = s.strobes := rfl
@[simp] theorem State.setEng_levels (s : State) (e : Engine) : (s.setEng e).levels = s.levels := rfl
@[simp] theorem State.setEng_trace (s : State) (e : Engine) : (s.setEng e).trace = s.trace := rfl
@[simp] theorem State.setEng_free (s : State) (e : Engine) : (s.setEng e).free = s.free := rfl

@[simp] theorem State.setTxbuf_cfg (s : State) (x : TxBuf) : (s.setTxbuf x).cfg = s.cfg := rfl
@[simp] theorem State.setTxbuf_dev (s : State) (x : TxBuf) : (s.setTxbuf x).dev = s.dev := rfl
@[simp] theorem State.setTxbuf_ch (s : State) (x : TxBuf) : (s.setTxbuf x).ch = s.ch := rfl
@[simp] theorem State.setTxbuf_eng (s : State) (x : TxBuf) : (s.setTxbuf x).eng = s.eng := rfl
@[simp] theorem State.setTxbuf_txbuf (s : State) (x : TxBuf) : (s.setTxbuf x).txbuf = x := rfl
@[simp] theorem State.setTxbuf_txValid (s : State) (x : TxBuf) : (s.setTxbuf x).txValid = s.txValid := rfl
@[simp] theorem State.setTxbuf_cfgmem (s : State) (x : TxBuf) : (s.setTxbuf x).cfgmem = s.cfgmem := rfl
@[simp] theorem State.setTxbuf_strobes (s : State) (x : TxBuf) : (s.setTxbuf x).strobes = s.strobes := rfl
@[simp] theorem State.setTxbuf_levels (s : State) (x : TxBuf) : (s.setTxbuf x).levels = s.levels := rfl
@[simp] theorem State.setTxbuf_trace (s : State) (x : TxBuf) : (s.setTxbuf x).trace = s.trace := rfl
@[simp] theorem State.setTxbuf_free (s : State) (x : TxBuf) : (s.setTxbuf x).free = s.free := rfl

@[simp] theorem State.setTxValid_cfg (s : State) (b : Bool) : (s.setTxValid b).cfg = s.cfg := rfl
@[simp] theorem State.setTxValid_dev (s : State) (b : Bool) : (s.setTxValid b).dev = s.dev := rfl
@[simp] theorem State.setTxValid_ch (s : State) (b : Bool) : (s.setTxValid b).ch = s.ch := rfl
@[simp] theorem State.setTxValid_eng (s : State) (b : Bool) : (s.setTxValid b).eng = s.eng := rfl
@[simp] theorem State.setTxValid_txbuf (s : State) (b : Bool) : (s.setTxValid b).txbuf = s.txbuf := rfl
@[simp] theorem State.setTxValid_txValid (s : State) (b : Bool) : (s.setTxValid b).txValid = b := rfl
@[simp] theorem State.setTxValid_cfgmem (s : State) (b : Bool) : (s.setTxValid b).cfgmem = s.cfgmem := rfl
@[simp] theorem State.setTxValid_strobes (s : State) (b : Bool) : (s.setTxValid b).strobes = s.strobes := rfl
@[simp] theorem State.setTxValid_levels (s : State) (b : Bool) : (s.setTxValid b).levels = s.levels := rfl
@[simp] theorem State.setTxValid_trace (s : State) (b : Bool) : (s.setTxValid b).trace = s.trace := rfl
@[simp] theorem State.setTxValid_free (s : State) (b : Bool) : (s.setTxValid b).free = s.free := rfl

@[simp] theorem State.setCfgmem_cfg (s : State) (m : Memory) : (s.setCfgmem m).cfg = s.cfg := rfl
@[simp] theorem State.setCfgmem_dev (s : State) (m : Memory) : (s.setCfgmem m).dev = s.dev := rfl
@[simp] theorem State.setCfgmem_ch (s : State) (m : Memory) : (s.setCfgmem m).ch = s.ch := rfl
@[simp] theorem State.setCfgmem_eng (s : State) (m : Memory) : (s.setCfgmem m).eng = s.eng := rfl
@[simp] theorem State.setCfgmem_txbuf (s : State) (m : Memory) : (s.setCfgmem m).txbuf = s.txbuf := rfl
@[simp] theorem State.setCfgmem_txValid (s : State) (m : Memory) : (s.setCfgmem m).txValid = s.txValid := rfl
@[simp] theorem State.setCfgmem_cfgmem (s : State) (m : Memory) : (s.setCfgmem m).cfgmem = m := rfl
@[simp] theorem State.setCfgmem_strobes (s : State) (m : Memory) : (s.setCfgmem m).strobes = s.strobes := rfl
@[simp] theorem State.setCfgmem_levels (s : State) (m : Memory) : (s.setCfgmem m).levels = s.levels := rfl
@[simp] theorem State.setCfgmem_trace (s : State) (m : Memory) : (s.setCfgmem m).trace = s.trace := rfl
@[simp] theorem State.setCfgmem_free (s : State) (m : Memory) : (s.setCfgmem m).free = s.free := rfl

@[simp] theorem State.setStrobes_cfg (s : State) (p : Strobes) : (s.setStrobes p).cfg = s.cfg := rfl
@[simp] theorem State.setStrobes_dev (s : State) (p : Strobes) : (s.setStrobes p).dev = s.dev := rfl
@[simp] theorem State.setStrobes_ch (s : State) (p : Strobes) : (s.setStrobes p).ch = s.ch := rfl
@[simp] theorem State.setStrobes_eng (s : State) (p : Strobes) : (s.setStrobes p).eng = s.eng := rfl
@[simp] theorem State.setStrobes_txbuf (s : State) (p : Strobes) : (s.setStrobes p).txbuf = s.txbuf := rfl
@[simp] theorem State.setStrobes_txValid (s : State) (p : Strobes) : (s.setStrobes p).txValid = s.txValid := rfl
@[simp] theorem State.setStrobes_cfgmem (s : State) (p : Strobes) : (s.setStrobes p).cfgmem = s.cfgmem := rfl
@[simp] theorem State.setStrobes_strobes (s : State) (p : Strobes) : (s.setStrobes p).strobes = p := rfl
@[simp] theorem State.setStrobes_levels (s : State) (p : Strobes) : (s.setStrobes p).levels = s.levels := rfl
@[simp] theorem State.setStrobes_trace (s : State) (p : Strobes) : (s.setStrobes p).trace = s.trace := rfl
@[simp] theorem State.setStrobes_free (s : State) (p : Strobes) : (s.setStrobes p).free = s.free := rfl

@[simp] theorem State.setLevels_cfg (s : State) (l : InputLevels) : (s.setLevels l).cfg = s.cfg := rfl
@[simp] theorem State.setLevels_dev (s : State) (l : InputLevels) : (s.setLevels l).dev = s.dev := rfl
@[simp] theorem State.setLevels_ch (s : State) (l : InputLevels) : (s.setLevels l).ch = s.ch := rfl
@[simp] theorem State.setLevels_eng (s : State) (l : InputLevels) : (s.setLevels l).eng = s.eng := rfl
@[simp] theorem State.setLevels_txbuf (s : State) (l : InputLevels) : (s.setLevels l).txbuf = s.txbuf := rfl
@[simp] theorem State.setLevels_txValid (s : State) (l : InputLevels) : (s.setLevels l).txValid = s.txValid := rfl
@[simp] theorem State.setLevels_cfgmem (s : State) (l : InputLevels) : (s.setLevels l).cfgmem = s.cfgmem := rfl
@[simp] theorem State.setLevels_strobes (s : State) (l : InputLevels) : (s.setLevels l).strobes = s.strobes := rfl
@[simp] theorem State.setLevels_levels (s : State) (l : InputLevels) : (s.setLevels l).levels = l := rfl
@[simp] theorem State.setLevels_trace (s : State) (l : InputLevels) : (s.setLevels l).trace = s.trace := rfl
@[simp] theorem State.setLevels_free (s : State) (l : InputLevels) : (s.setLevels l).free = s.free := rfl

@[simp] theorem State.setTrace_cfg (s : State) (ls : List TraceLine) : (s.setTrace ls).cfg = s.cfg := rfl
@[simp] theorem State.setTrace_dev (s : State) (ls : List TraceLine) : (s.setTrace ls).dev = s.dev := rfl
@[simp] theorem State.setTrace_ch (s : State) (ls : List TraceLine) : (s.setTrace ls).ch = s.ch := rfl
@[simp] theorem State.setTrace_eng (s : State) (ls : List TraceLine) : (s.setTrace ls).eng = s.eng := rfl
@[simp] theorem State.setTrace_txbuf (s : State) (ls : List TraceLine) : (s.setTrace ls).txbuf = s.txbuf := rfl
@[simp] theorem State.setTrace_txValid (s : State) (ls : List TraceLine) : (s.setTrace ls).txValid = s.txValid := rfl
@[simp] theorem State.setTrace_cfgmem (s : State) (ls : List TraceLine) : (s.setTrace ls).cfgmem = s.cfgmem := rfl
@[simp] theorem State.setTrace_strobes (s : State) (ls : List TraceLine) : (s.setTrace ls).strobes = s.strobes := rfl
@[simp] theorem State.setTrace_levels (s : State) (ls : List TraceLine) : (s.setTrace ls).levels = s.levels := rfl
@[simp] theorem State.setTrace_trace (s : State) (ls : List TraceLine) : (s.setTrace ls).trace = ls := rfl
@[simp] theorem State.setTrace_free (s : State) (ls : List TraceLine) : (s.setTrace ls).free = s.free := rfl

@[simp] theorem DevFile.get_ofFn (v : Fin 4 → Device) (d : Fin 4) : (DevFile.ofFn v).get d = v d := by
  fin_cases d <;> rfl

@[simp] theorem DevFile.get_set_same (f : DevFile) (d : Fin 4) (v : Device) : (f.set d v).get d = v := by
  fin_cases d <;> rfl

theorem DevFile.get_set_other (f : DevFile) {d e : Fin 4} (v : Device) (h : e ≠ d) : (f.set d v).get e = f.get e := by
  fin_cases d <;> fin_cases e <;> first | rfl | exact absurd rfl h

@[simp] theorem DevFile.set_get_self (f : DevFile) (d : Fin 4) : f.set d (f.get d) = f := by
  fin_cases d <;> rfl

theorem DevFile.ext_get {f g : DevFile} (h : ∀ d, f.get d = g.get d) : f = g := by
  obtain ⟨f0, f1, f2, f3⟩ := f
  obtain ⟨g0, g1, g2, g3⟩ := g
  exact DevFile.mk.injEq .. |>.mpr ⟨h 0, h 1, h 2, h 3⟩

@[simp] theorem ChFile.get_ofFn (v : Fin 8 → Channel) (c : Fin 8) : (ChFile.ofFn v).get c = v c := by
  fin_cases c <;> rfl

theorem ChFile.ext_get {f g : ChFile} (h : ∀ c, f.get c = g.get c) : f = g := by
  obtain ⟨f0, f1, f2, f3, f4, f5, f6, f7⟩ := f
  obtain ⟨g0, g1, g2, g3, g4, g5, g6, g7⟩ := g
  exact ChFile.mk.injEq .. |>.mpr ⟨h 0, h 1, h 2, h 3, h 4, h 5, h 6, h 7⟩

@[simp] theorem ChFile.get_reset (c : Fin 8) : ChFile.reset.get c = Channel.reset := by
  fin_cases c <;> rfl

@[simp] theorem State.modifyDev_ch (s : State) (d : Fin 4) (f : Device → Device) : (s.modifyDev d f).ch = s.ch := rfl
@[simp] theorem State.modifyDev_cfg (s : State) (d : Fin 4) (f : Device → Device) : (s.modifyDev d f).cfg = s.cfg := rfl
@[simp] theorem State.modifyDev_eng (s : State) (d : Fin 4) (f : Device → Device) : (s.modifyDev d f).eng = s.eng := rfl
@[simp] theorem State.modifyDev_txbuf (s : State) (d : Fin 4) (f : Device → Device) : (s.modifyDev d f).txbuf = s.txbuf := rfl
@[simp] theorem State.modifyDev_txValid (s : State) (d : Fin 4) (f : Device → Device) :
    (s.modifyDev d f).txValid = s.txValid := rfl
@[simp] theorem State.modifyDev_cfgmem (s : State) (d : Fin 4) (f : Device → Device) :
    (s.modifyDev d f).cfgmem = s.cfgmem := rfl
@[simp] theorem State.modifyDev_strobes (s : State) (d : Fin 4) (f : Device → Device) :
    (s.modifyDev d f).strobes = s.strobes := rfl
@[simp] theorem State.modifyDev_levels (s : State) (d : Fin 4) (f : Device → Device) :
    (s.modifyDev d f).levels = s.levels := rfl
@[simp] theorem State.modifyDev_trace (s : State) (d : Fin 4) (f : Device → Device) :
    (s.modifyDev d f).trace = s.trace := rfl
@[simp] theorem State.modifyDev_free (s : State) (d : Fin 4) (f : Device → Device) :
    (s.modifyDev d f).free = s.free := rfl

@[simp] theorem State.modifyDev_dev_same (s : State) (d : Fin 4) (f : Device → Device) :
    (s.modifyDev d f).dev.get d = f (s.dev.get d) := by
  simp [State.modifyDev]

theorem State.modifyDev_dev_other (s : State) {d e : Fin 4} (f : Device → Device) (h : e ≠ d) :
    (s.modifyDev d f).dev.get e = s.dev.get e := by
  simp [State.modifyDev, DevFile.get_set_other _ _ h]

end Sys2Proof.Machine
end

