-- ==== Sys2Proof/Laws/Ops.lean ====
section
/-! SUPPORT. For each shared operation, once, everything it can do: the provers cite these and do not unfold it. -/

namespace Sys2Proof.Machine

/-! ### Acceptance -/

theorem State.ready_iff (s : State) : s.ready = true ↔ s.eng.phase ≠ .announcing := by
  simp [State.ready]

theorem whenReady_ready {s : State} (f : State → State) (h : s.eng.phase ≠ .announcing) : whenReady s f = .next (f s) := by
  simp [whenReady, (State.ready_iff s).mpr h]

theorem whenReady_held {s : State} (f : State → State) (h : s.eng.phase = .announcing) : whenReady s f = .next s := by
  simp [whenReady, State.ready, h]

/-- Everything `whenReady` can do. -/
theorem whenReady_cases {s t : State} {f : State → State} (h : whenReady s f = .next t) :
    (s.eng.phase ≠ .announcing ∧ t = f s) ∨ (s.eng.phase = .announcing ∧ t = s) := by
  by_cases hp : s.eng.phase = .announcing
  · rw [whenReady_held f hp] at h
    exact .inr ⟨hp, (Host.Outcome.next.inj h).symm⟩
  · rw [whenReady_ready f hp] at h
    exact .inl ⟨hp, (Host.Outcome.next.inj h).symm⟩

/-! ### ACT_TICK, SAMPLE, COMMIT: one record at a time -/

@[simp] theorem actTick_get (s : State) (d : Fin 4) : (actTick s).dev.get d = (s.dev.get d).tick := by
  simp [actTick]

@[simp] theorem actTick_cfg (s : State) : (actTick s).cfg = s.cfg := rfl
@[simp] theorem actTick_ch (s : State) : (actTick s).ch = s.ch := rfl
@[simp] theorem actTick_eng (s : State) : (actTick s).eng = s.eng := rfl
@[simp] theorem actTick_txbuf (s : State) : (actTick s).txbuf = s.txbuf := rfl
@[simp] theorem actTick_txValid (s : State) : (actTick s).txValid = s.txValid := rfl
@[simp] theorem actTick_cfgmem (s : State) : (actTick s).cfgmem = s.cfgmem := rfl
@[simp] theorem actTick_strobes (s : State) : (actTick s).strobes = s.strobes := rfl
@[simp] theorem actTick_levels (s : State) : (actTick s).levels = s.levels := rfl
@[simp] theorem actTick_trace (s : State) : (actTick s).trace = s.trace := rfl
@[simp] theorem actTick_free (s : State) : (actTick s).free = s.free := rfl

@[simp] theorem sample_get (raw : Byte) (s : State) (c : Fin 8) :
    (sample raw s).ch.get c = (s.ch.get c).sample s.cfg.retx (rawBit raw c) := by
  simp [sample]

@[simp] theorem sample_cfg (raw : Byte) (s : State) : (sample raw s).cfg = s.cfg := rfl
@[simp] theorem sample_dev (raw : Byte) (s : State) : (sample raw s).dev = s.dev := rfl
@[simp] theorem sample_eng (raw : Byte) (s : State) : (sample raw s).eng = s.eng := rfl
@[simp] theorem sample_txbuf (raw : Byte) (s : State) : (sample raw s).txbuf = s.txbuf := rfl
@[simp] theorem sample_txValid (raw : Byte) (s : State) : (sample raw s).txValid = s.txValid := rfl
@[simp] theorem sample_cfgmem (raw : Byte) (s : State) : (sample raw s).cfgmem = s.cfgmem := rfl
@[simp] theorem sample_strobes (raw : Byte) (s : State) : (sample raw s).strobes = s.strobes := rfl
@[simp] theorem sample_levels (raw : Byte) (s : State) : (sample raw s).levels = s.levels := rfl
@[simp] theorem sample_trace (raw : Byte) (s : State) : (sample raw s).trace = s.trace := rfl
@[simp] theorem sample_free (raw : Byte) (s : State) : (sample raw s).free = s.free := rfl

@[simp] theorem commit_get (g : Fin 4) (s : State) (c : Fin 8) :
    (commit g s).ch.get c = if groupOf c = g then (s.ch.get c).commit else s.ch.get c := by
  simp [commit]

@[simp] theorem commit_cfg (g : Fin 4) (s : State) : (commit g s).cfg = s.cfg := rfl
@[simp] theorem commit_dev (g : Fin 4) (s : State) : (commit g s).dev = s.dev := rfl
@[simp] theorem commit_eng (g : Fin 4) (s : State) : (commit g s).eng = s.eng := rfl
@[simp] theorem commit_txbuf (g : Fin 4) (s : State) : (commit g s).txbuf = s.txbuf := rfl
@[simp] theorem commit_txValid (g : Fin 4) (s : State) : (commit g s).txValid = s.txValid := rfl
@[simp] theorem commit_cfgmem (g : Fin 4) (s : State) : (commit g s).cfgmem = s.cfgmem := rfl
@[simp] theorem commit_strobes (g : Fin 4) (s : State) : (commit g s).strobes = s.strobes := rfl
@[simp] theorem commit_levels (g : Fin 4) (s : State) : (commit g s).levels = s.levels := rfl
@[simp] theorem commit_trace (g : Fin 4) (s : State) : (commit g s).trace = s.trace := rfl
@[simp] theorem commit_free (g : Fin 4) (s : State) : (commit g s).free = s.free := rfl

/-! ### SEND and ANNOUNCE -/

@[simp] theorem send_cfg (g : Fin 4) (s : State) : (send g s).cfg = s.cfg := rfl
@[simp] theorem send_dev (g : Fin 4) (s : State) : (send g s).dev = s.dev := rfl
@[simp] theorem send_ch (g : Fin 4) (s : State) : (send g s).ch = s.ch := rfl
@[simp] theorem send_eng (g : Fin 4) (s : State) : (send g s).eng = s.eng := rfl
@[simp] theorem send_busy (g : Fin 4) (s : State) : (send g s).txbuf.busy = true := rfl
@[simp] theorem send_txValid (g : Fin 4) (s : State) : (send g s).txValid = true := rfl
@[simp] theorem send_cfgmem (g : Fin 4) (s : State) : (send g s).cfgmem = s.cfgmem := rfl
@[simp] theorem send_strobes (g : Fin 4) (s : State) : (send g s).strobes = s.strobes := rfl
@[simp] theorem send_levels (g : Fin 4) (s : State) : (send g s).levels = s.levels := rfl
@[simp] theorem send_trace (g : Fin 4) (s : State) : (send g s).trace = s.trace := rfl
@[simp] theorem send_free (g : Fin 4) (s : State) : (send g s).free = s.free := rfl

@[simp] theorem announce_cfg (s : State) : (announce s).cfg = s.cfg := rfl
@[simp] theorem announce_dev (s : State) : (announce s).dev = s.dev := rfl
@[simp] theorem announce_ch (s : State) : (announce s).ch = s.ch := rfl
@[simp] theorem announce_eng (s : State) : (announce s).eng = s.eng.announced := rfl
@[simp] theorem announce_txbuf (s : State) : (announce s).txbuf = (send s.eng.idx s).txbuf := rfl
@[simp] theorem announce_txValid (s : State) : (announce s).txValid = true := rfl
@[simp] theorem announce_cfgmem (s : State) : (announce s).cfgmem = s.cfgmem := rfl
@[simp] theorem announce_strobes (s : State) : (announce s).strobes = s.strobes := rfl
@[simp] theorem announce_levels (s : State) : (announce s).levels = s.levels := rfl
@[simp] theorem announce_trace (s : State) : (announce s).trace = s.trace := rfl
@[simp] theorem announce_free (s : State) : (announce s).free = s.free := rfl

theorem announceEnabled_iff (s : State) :
    announceEnabled s = true ↔ s.eng.phase = .announcing ∧ s.txbuf.busy = false := by
  simp [announceEnabled]

/-- Everything the eager step can do. -/
theorem announceStep_cases (s : State) :
    (announceEnabled s = true ∧ announceStep s = announce s) ∨ (announceEnabled s = false ∧ announceStep s = s) := by
  unfold announceStep
  split
  · exact .inl ⟨‹_›, rfl⟩
  · exact .inr ⟨by simp_all, rfl⟩

@[simp] theorem announceStep_cfg (s : State) : (announceStep s).cfg = s.cfg := by unfold announceStep; split <;> rfl
@[simp] theorem announceStep_dev (s : State) : (announceStep s).dev = s.dev := by unfold announceStep; split <;> rfl
@[simp] theorem announceStep_ch (s : State) : (announceStep s).ch = s.ch := by unfold announceStep; split <;> rfl
@[simp] theorem announceStep_cfgmem (s : State) : (announceStep s).cfgmem = s.cfgmem := by
  unfold announceStep; split <;> rfl
@[simp] theorem announceStep_strobes (s : State) : (announceStep s).strobes = s.strobes := by
  unfold announceStep; split <;> rfl
@[simp] theorem announceStep_levels (s : State) : (announceStep s).levels = s.levels := by
  unfold announceStep; split <;> rfl
@[simp] theorem announceStep_trace (s : State) : (announceStep s).trace = s.trace := by
  unfold announceStep; split <;> rfl
@[simp] theorem announceStep_free (s : State) : (announceStep s).free = s.free := by
  unfold announceStep; split <;> rfl

/-! ### The scan and TRY_SEND -/

/-- Group g is stable and has a pending unflushed change (R119). -/
def eligible (f : ChFile) (g : Fin 4) : Bool := (query f g).allStable && (query f g).anyChanged

/-- Everything the scan of a list of groups can do: nothing, or the first eligible group is served. -/
theorem scanGroups_cases (gs : List (Fin 4)) (s : State) :
    ((∀ g ∈ gs, eligible s.ch g = false) ∧ scanGroups gs s = s) ∨
    (∃ before g rest, gs = before ++ g :: rest ∧ (∀ h ∈ before, eligible s.ch h = false) ∧ eligible s.ch g = true ∧
      scanGroups gs s = commit g (send g s)) := by
  induction gs with
  | nil => exact .inl ⟨by simp, rfl⟩
  | cons g rest ih =>
    unfold scanGroups
    split
    · exact .inr ⟨[], g, rest, rfl, by simp, ‹_›, rfl⟩
    · rename_i hn
      have hg : eligible s.ch g = false := Bool.eq_false_iff.mpr hn
      obtain ⟨h1, h2⟩ | ⟨before, h, after, rfl, h1, h2, h3⟩ := ih
      · exact .inl ⟨by simpa [hg] using h1, h2⟩
      · exact .inr ⟨g :: before, h, after, rfl, by simpa [hg] using h1, h2, h3⟩

/-- Everything TRY_SEND can do (R114 to R119). -/
theorem trySend_cases (busActive : Bool) (s : State) :
    (fbEnabled s.cfg = false ∧ trySend busActive s = s) ∨
    (fbEnabled s.cfg = true ∧ busActive = false ∧ trySend busActive s = s.setEng { s.eng with phase := .disconnected }) ∨
    (fbEnabled s.cfg = true ∧ busActive = true ∧ s.eng.phase = .disconnected ∧ allStable s.ch = true ∧
      trySend busActive s = s.setEng { phase := .announcing, idx := 0 }) ∨
    (fbEnabled s.cfg = true ∧ busActive = true ∧ s.eng.phase = .disconnected ∧ allStable s.ch = false ∧
      trySend busActive s = s) ∨
    (fbEnabled s.cfg = true ∧ busActive = true ∧ s.eng.phase ≠ .disconnected ∧ trySend busActive s = s) ∨
    (∃ g, fbEnabled s.cfg = true ∧ busActive = true ∧ s.eng.phase ≠ .disconnected ∧ s.txbuf.busy = false ∧
      eligible s.ch g = true ∧ trySend busActive s = commit g (send g s)) := by
  unfold trySend
  split
  · exact .inl ⟨by simp_all, rfl⟩
  · have hf : fbEnabled s.cfg = true := by simp_all
    split
    · exact .inr (.inl ⟨hf, by simp_all, rfl⟩)
    · have hb : busActive = true := by simp_all
      split
      · unfold joinGuard
        split
        · exact .inr (.inr (.inl ⟨hf, hb, ‹_›, ‹_›, rfl⟩))
        · exact .inr (.inr (.inr (.inl ⟨hf, hb, ‹_›, by simp_all, rfl⟩)))
      · unfold scan
        split
        · exact .inr (.inr (.inr (.inr (.inl ⟨hf, hb, ‹_›, rfl⟩))))
        · obtain ⟨-, h⟩ | ⟨-, g, -, -, -, hg, h⟩ := scanGroups_cases groupOrder s
          · exact .inr (.inr (.inr (.inr (.inl ⟨hf, hb, ‹_›, h⟩))))
          · exact .inr (.inr (.inr (.inr (.inr ⟨g, hf, hb, ‹_›, by simp_all, hg, h⟩))))

/-- What TRY_SEND never touches. -/
theorem trySend_frame (busActive : Bool) (s : State) :
    (trySend busActive s).cfg = s.cfg ∧ (trySend busActive s).dev = s.dev ∧ (trySend busActive s).cfgmem = s.cfgmem ∧
    (trySend busActive s).strobes = s.strobes ∧ (trySend busActive s).levels = s.levels ∧
    (trySend busActive s).trace = s.trace ∧ (trySend busActive s).free = s.free := by
  obtain ⟨-, h⟩ | ⟨-, -, h⟩ | ⟨-, -, -, -, h⟩ | ⟨-, -, -, -, h⟩ | ⟨-, -, -, h⟩ | ⟨g, -, -, -, -, -, h⟩ :=
    trySend_cases busActive s <;> rw [h] <;> simp

/-! ### RESET -/

/-- RESET reads indices 0 to 10 only, so it never faults. -/
theorem loadCfg_eq (m : Memory) :
    loadCfg m = .ok
      { addrLo := m.byteAt 0, addrHi := m.byteAt 1, mode := m.byteAt 2, hold0 := m.byteAt 3, hold1 := m.byteAt 4
        hold2 := m.byteAt 5, hold3 := m.byteAt 6, fbAddr := m.byteAt 7, split := m.byteAt 8, retx := m.byteAt 9
        reassert := m.byteAt 10 } := rfl

theorem execReset_eq (s : State) :
    execReset s = .next (resetWith
      { addrLo := s.cfgmem.byteAt 0, addrHi := s.cfgmem.byteAt 1, mode := s.cfgmem.byteAt 2, hold0 := s.cfgmem.byteAt 3
        hold1 := s.cfgmem.byteAt 4, hold2 := s.cfgmem.byteAt 5, hold3 := s.cfgmem.byteAt 6, fbAddr := s.cfgmem.byteAt 7
        split := s.cfgmem.byteAt 8, retx := s.cfgmem.byteAt 9, reassert := s.cfgmem.byteAt 10 } s) := rfl

/-! ### One device, one window, one nibble -/

/-- Everything ACT_TICK does to one device (R92). -/
theorem Device.tick_spec (v : Device) :
    v.tick.rem.toNat = v.rem.toNat - 1 ∧ v.tick.pos = v.pos ∧ v.tick.hold = v.hold ∧
    (v.rem.toNat = 1 → v.tick.coilG = false ∧ v.tick.coilR = false) ∧
    (v.rem.toNat ≠ 1 → v.tick.coilG = v.coilG ∧ v.tick.coilR = v.coilR) := by
  have hlt := v.rem.isLt
  unfold Device.tick
  by_cases h0 : 0 < v.rem.toNat
  · have e : (v.rem - 1#8).toNat = v.rem.toNat - 1 := by
      rw [BitVec.toNat_sub]
      simp
      omega
    have z : v.rem - 1#8 = 0#8 ↔ v.rem.toNat = 1 := by
      rw [← BitVec.toNat_inj, e]
      simp
      omega
    by_cases h1 : v.rem.toNat = 1
    · simp [h1, z, Device.coilsOff, e]
    · simp [h0, h1, z, e]
  · simp [h0]
    omega

/-- Everything a pulse does to its device (R90 steps 1 to 4). -/
theorem Device.pulse_spec (v : Device) (g : CmdGate) :
    (v.pulse g).pos = gateOfCmd g ∧ (v.pulse g).hold = v.hold ∧ (v.pulse g).rem = v.hold ∧
    ((v.pulse g).coilG = true ↔ g = .green ∧ 0 < v.hold.toNat) ∧
    ((v.pulse g).coilR = true ↔ g = .red ∧ 0 < v.hold.toNat) := by
  unfold Device.pulse
  cases g <;> split <;> simp_all [Device.energize, Device.coilsOff]

/-- Everything ACT does to its device (R90). -/
theorem Device.activate_cases (v : Device) (reassert : Bool) (g : CmdGate) :
    ((v.pos ≠ gateOfCmd g ∨ reassert = true) ∧ v.activate reassert g = v.pulse g) ∨
    (v.pos = gateOfCmd g ∧ reassert = false ∧ v.activate reassert g = v) := by
  unfold Device.activate
  split
  · exact .inl ⟨‹_›, rfl⟩
  · exact .inr ⟨by simp_all, by simp_all, rfl⟩

theorem shiftIn_toNat (w : Byte) (b : Bool) : (shiftIn w b).toNat = (w.toNat * 2 + b.toNat) % 256 := by
  revert w b
  decide

theorem stableFlag_iff (fill : BitVec 4) (win : Byte) :
    stableFlag fill win = true ↔ fill = 8#4 ∧ (win = 0x00#8 ∨ win = 0xFF#8) := by
  simp [stableFlag]

theorem armFlag_iff (stableNew stableOld b rep : Bool) :
    armFlag stableNew stableOld b rep = true ↔ stableNew = true ∧ stableOld = false ∧ b ≠ rep := by
  simp [armFlag, and_assoc]

theorem nibble_getLsbD (f : Fin 4 → Bool) (i : Fin 4) : (nibble f).getLsbD i.val = f i := by
  have bits : ∀ b0 b1 b2 b3 : Bool,
      let w := BitVec.ofBool b3 ++ BitVec.ofBool b2 ++ BitVec.ofBool b1 ++ BitVec.ofBool b0
      w.getLsbD 0 = b0 ∧ w.getLsbD 1 = b1 ∧ w.getLsbD 2 = b2 ∧ w.getLsbD 3 = b3 := by decide
  obtain ⟨h0, h1, h2, h3⟩ := bits (f 0) (f 1) (f 2) (f 3)
  fin_cases i <;> assumption

/-! ### Events and steps -/

theorem exec_nop (s : State) : exec .nop s = .next s := rfl

theorem exec_tick (busActive : Bool) (raw : Byte) (s : State) :
    exec (.tick busActive raw) s = whenReady s fun s => trySend busActive (sample raw (actTick s)) := rfl

theorem exec_deact (gate : CmdGate) (device : Fin 4) (s : State) : exec (.deact gate device) s = whenReady s fun s => s := rfl

theorem exec_act (gate : CmdGate) (device : Fin 4) (s : State) :
    exec (.act gate device) s = whenReady s fun s => s.modifyDev device fun v => v.activate s.cfg.reassert gate := rfl

theorem exec_txdone (s : State) : exec .txdone s = .next (s.setTxbuf { s.txbuf with busy := false }) := rfl

/-- Everything an event can do: each answers a next state. -/
theorem exec_cases {i : Instr} {s t : State} (h : exec i s = .next t) :
    (t = s) ∨
    (∃ busActive raw, i = .tick busActive raw ∧ s.eng.phase ≠ .announcing ∧
      t = trySend busActive (sample raw (actTick s))) ∨
    (∃ gate device, i = .act gate device ∧ s.eng.phase ≠ .announcing ∧
      t = s.modifyDev device fun v => v.activate s.cfg.reassert gate) ∨
    (i = .txdone ∧ t = s.setTxbuf { s.txbuf with busy := false }) ∨
    (i = .reset ∧ ∃ b, loadCfg s.cfgmem = .ok b ∧ t = resetWith b s) := by
  cases i with
  | nop => exact .inl (Host.Outcome.next.inj h).symm
  | tick busActive raw =>
    obtain ⟨hp, e⟩ | ⟨-, e⟩ := whenReady_cases (show execTick busActive raw s = .next t from h)
    · exact .inr (.inl ⟨busActive, raw, rfl, hp, e⟩)
    · exact .inl e
  | deact gate device =>
    obtain ⟨-, e⟩ | ⟨-, e⟩ := whenReady_cases (show execDeact gate device s = .next t from h) <;> exact .inl e
  | act gate device =>
    obtain ⟨hp, e⟩ | ⟨-, e⟩ := whenReady_cases (show execAct gate device s = .next t from h)
    · exact .inr (.inr (.inl ⟨gate, device, rfl, hp, e⟩))
    · exact .inl e
  | txdone => exact .inr (.inr (.inr (.inl ⟨rfl, (Host.Outcome.next.inj h).symm⟩)))
  | reset =>
    exact .inr (.inr (.inr (.inr ⟨rfl, _, loadCfg_eq _, (Host.Outcome.next.inj ((execReset_eq s).symm.trans h)).symm⟩)))

/-- Every event answers a next state. -/
theorem exec_next (i : Instr) (s : State) : ∃ t, exec i s = .next t := by
  have hw : ∀ f : State → State, ∃ t, whenReady s f = .next t := fun f => by
    unfold whenReady
    split <;> exact ⟨_, rfl⟩
  cases i with
  | nop => exact ⟨_, rfl⟩
  | tick busActive raw => exact hw fun s => trySend busActive (sample raw (actTick s))
  | deact gate device => exact hw fun s => s
  | act gate device => exact hw fun s => s.modifyDev device fun v => v.activate s.cfg.reassert gate
  | txdone => exact ⟨_, rfl⟩
  | reset => exact ⟨_, execReset_eq s⟩

/-- Everything taking an event can do. -/
theorem takeEvent_cases {i : Instr} {s t : State} (h : takeEvent i s = .next t) :
    ∃ u, exec i (s.setTxValid false) = .next u ∧ t = announceStep u := by
  obtain ⟨u, hu⟩ := exec_next i (s.setTxValid false)
  refine ⟨u, hu, ?_⟩
  simp only [takeEvent, hu] at h
  exact (Host.Outcome.next.inj h).symm

/-- Everything one step can do when it answers a next state: an event is taken, or a held one leaves the state. -/
theorem step_cases {s t : State} (h : step s = .next t) :
    (∃ i u, fetch s = .event i u ∧ ∃ v, exec i (u.setTxValid false) = .next v ∧ t = announceStep v) ∨
    (∃ i, fetch s = .held i ∧ t = s) := by
  unfold step at h
  split at h
  · exact .inl ⟨_, _, ‹_›, takeEvent_cases h⟩
  · exact .inr ⟨_, ‹_›, (Host.Outcome.next.inj h).symm⟩
  · cases h

/-- What fetching an event changes: the strobes, the trace, and the bytes at the CFGMEM port if a line gives them; nothing
else, the input levels included. -/
theorem fetch_event_frame {s u : State} {i : Instr} (h : fetch s = .event i u) :
    u.cfg = s.cfg ∧ u.dev = s.dev ∧ u.ch = s.ch ∧ u.eng = s.eng ∧ u.txbuf = s.txbuf ∧ u.txValid = s.txValid ∧
    u.free = s.free ∧ (u.cfgmem = s.cfgmem ∨ ∃ b, u.cfgmem = Memory.ofCfg b) ∧ u.levels = s.levels := by
  have strobe : ∀ {j : Instr} {v : State}, nextStrobe s = some (j, v) → ∃ p, v = s.setStrobes p := by
    intro j v hv
    unfold nextStrobe at hv
    split at hv
    · exact ⟨_, (Prod.mk.inj (Option.some.inj hv)).2.symm⟩
    · split at hv
      · exact ⟨_, (Prod.mk.inj (Option.some.inj hv)).2.symm⟩
      · split at hv
        · split at hv
          · exact ⟨_, (Prod.mk.inj (Option.some.inj hv)).2.symm⟩
          · split at hv
            · exact ⟨_, (Prod.mk.inj (Option.some.inj hv)).2.symm⟩
            · cases hv
        · cases hv
  unfold fetch at h
  split at h
  · rename_i hn
    obtain ⟨p, rfl⟩ := strobe hn
    cases h
    simp
  · split at h
    · cases h
      simp
    · split at h
      · cases h
      · split at h
        · cases h
          rename_i l rest _ _ _ _
          unfold State.discardFor State.presentCfg
          rcases l.cfg with _ | b <;> split <;> simp
        · cases h

end Sys2Proof.Machine
end

