-- ==== Sys2Proof/Laws/PerInstr.lean ====
section
/-! SUPPORT. Statements made per event: the word of each event fits exactly its own row of the opcode table (30_encoding.md
R61). -/

namespace Sys2Proof.Laws

/-- The word of the event fits the row of its mnemonic and no other row. -/
def EncodeFitsItsRow.Statement (i : Instr) : Prop :=
  ∀ r ∈ opTable, r.fits (encode i) = decide (r.mnemonic = i.mnemonic)

theorem EncodeFitsItsRow.nop : EncodeFitsItsRow.Statement .nop := by
  unfold EncodeFitsItsRow.Statement
  decide

set_option maxRecDepth 20000 in
theorem EncodeFitsItsRow.tick (busActive : Bool) (raw : Byte) : EncodeFitsItsRow.Statement (.tick busActive raw) := by
  unfold EncodeFitsItsRow.Statement
  revert busActive raw
  decide

theorem EncodeFitsItsRow.deact (gate : CmdGate) (device : Fin 4) :
    EncodeFitsItsRow.Statement (.deact gate device) := by
  unfold EncodeFitsItsRow.Statement
  cases gate <;> revert device <;> decide

theorem EncodeFitsItsRow.act (gate : CmdGate) (device : Fin 4) : EncodeFitsItsRow.Statement (.act gate device) := by
  unfold EncodeFitsItsRow.Statement
  cases gate <;> revert device <;> decide

theorem EncodeFitsItsRow.txdone : EncodeFitsItsRow.Statement .txdone := by
  unfold EncodeFitsItsRow.Statement
  decide

theorem EncodeFitsItsRow.reset : EncodeFitsItsRow.Statement .reset := by
  unfold EncodeFitsItsRow.Statement
  decide

end Sys2Proof.Laws
end

