-- ==== Sys2Proof/Laws/Trace.lean ====
section
/-! SUPPORT. What taking events one after another can do, and that the run of a trace takes the steps of the machine. -/

namespace Sys2Proof.Machine

/-- Taking an event always answers a next state. -/
theorem takeEvent_next (i : Instr) (s : State) : ∃ t, takeEvent i s = .next t := by
  obtain ⟨u, hu⟩ := exec_next i (s.setTxValid false)
  exact ⟨announceStep u, by simp only [takeEvent, hu]⟩

@[simp] theorem takeAccepted_nil (s : State) : takeAccepted [] s = some s := rfl

/-- Everything taking a list of events can do. -/
theorem takeAccepted_cons_cases {i : Instr} {rest : List Instr} {s u : State} (h : takeAccepted (i :: rest) s = some u) :
    accepted i s.eng.phase = true ∧ ∃ t, takeEvent i s = .next t ∧ takeAccepted rest t = some u := by
  obtain ⟨t, ht⟩ := takeEvent_next i s
  simp only [takeAccepted, ht] at h
  split at h
  · exact ⟨‹_›, t, ht, h⟩
  · cases h

theorem Behaviour.empty_append (b : Behaviour) : Behaviour.empty.append b = b := rfl

theorem Behaviour.append_assoc (a b c : Behaviour) : (a.append b).append c = a.append (b.append c) := by
  simp [Behaviour.append]

/-- An event line of a run is taken by one step. -/
theorem runLines_event {l : TraceLine} {rest : List TraceLine} {s u t : State} {i : Instr}
    (hf : fetch (s.setTrace [l]) = .event i u) (ht : step (s.setTrace [l]) = .next t) :
    runLines (l :: rest) s = (runLines rest t).after (observe i t) := by
  have e : takeEvent i u = .next t := by
    simpa only [step, hf] using ht
  simp only [runLines, hf, e]

end Sys2Proof.Machine
end

