-- ==== Sys2Proof/Tests/Slice0.lean ====
section
/-! SUPPORT. Tests: the well-formedness smoke, decoding of words written out from the spec, the spec's worked examples on
one step each, and for every obligation with hypotheses a concrete case that meets them. -/

namespace Sys2Proof.Tests

open Sys2Proof.Machine Sys2Proof.Safety

/-! ### Helpers -/

/-- The outcome is a next state that satisfies `p`. -/
def nextIs (o : Host.Outcome State Fault Refusal) (p : State → Bool) : Bool :=
  match o with
  | .next t => p t
  | .fault _ => false
  | .refused _ => false

/-- A channel that is stable at `v`, with `retx` repeats owed. -/
def stableAt (v : Bool) (retx : BitVec 9) : Channel :=
  { win := if v then 0xFF#8 else 0x00#8, fill := 8#4, stable := true, rep := false, pend := v, retx := retx }

/-- The reset state with feedback address 20, one repeat, in a given phase at a given group, the slot as given, all
channels stable at 0. -/
def joined (phase : Phase) (idx : Fin 4) (busy : Bool) : State :=
  { State.reset with
    cfg := { State.reset.cfg with fbAddr := 20#8, retx := 1#8 }
    ch := ChFile.ofFn fun _ => stableAt false 0#9
    eng := { phase := phase, idx := idx }
    txbuf := { State.reset.txbuf with busy := busy } }

/-- `s` with channel 0 stable at 1 and one repeat owed. -/
def withChange (s : State) : State := s.setCh { s.ch with c0 := stableAt true 1#9 }

/-- The reset state with device 2 as given. -/
def withDev2 (v : Device) : State := State.reset.modifyDev 2 fun _ => v

/-- Device 2 at Green with a hold time of 15, 7 ticks left. -/
def green7 : Device := { pos := .green, hold := 15#8, rem := 7#8, coilG := true, coilR := false }

/-- CFGMEM of the first row of 95_test_vectors.md section 2.2: `[05 00 00 0F 0F 0F 0F 14 00 02 00]`. -/
def cfgRow1 : CfgBytes := ⟨0x05#8, 0x00#8, 0x00#8, 0x0F#8, 0x0F#8, 0x0F#8, 0x0F#8, 0x14#8, 0x00#8, 0x02#8, 0x00#8⟩

/-- CFGMEM of its third row: `[00 81 01 0A 0A 0A 0A 81 01 00 01]`. -/
def cfgRow3 : CfgBytes := ⟨0x00#8, 0x81#8, 0x01#8, 0x0A#8, 0x0A#8, 0x0A#8, 0x0A#8, 0x81#8, 0x01#8, 0x00#8, 0x01#8⟩

/-- The channels of 43_feedback_protocol_engine.md's vectors: `pend` p7..p0 = 1,0,1,1,0,1,0,0. -/
def pendFile : ChFile := ChFile.ofFn fun c => stableAt ((0b10110100#8).getLsbD c.val) 0#9

/-- A word as the only line of the trace. -/
def feed (s : State) (w : EventWord) : State := s.setTrace [{ word := w, cfg := none }]

/-! ### Well-formedness: an ill-formed term for each check that can refuse one -/

theorem test_wf_telegram_address_0_refused : (Telegram.mk 0#8 false 0#4).wellFormed = false := by decide
theorem test_wf_telegram_address_129_refused : (Telegram.mk 129#8 false 0#4).wellFormed = false := by decide
theorem test_wf_telegram_address_128_admitted : (Telegram.mk 128#8 true 15#4).wellFormed = true := by decide
theorem test_wf_cfg_beside_a_tick_refused : (TraceLine.mk 0x1000#16 (some cfgRow1)).wellFormed = false := by decide
theorem test_wf_cfg_beside_a_reset_admitted : (TraceLine.mk 0xF000#16 (some cfgRow1)).wellFormed = true := by decide
/-- The checks of an event hold by type: the largest operands. -/
theorem test_wf_events_at_their_largest : (Instr.tick true 0xFF#8).wellFormed = true ∧
    (Instr.act .red 3).wellFormed = true ∧ (Instr.deact .red 3).wellFormed = true := by decide

/-! ### Decoding: words written bit by bit from R61, the events from 95_test_vectors.md section 2.1 -/

theorem test_decode_nop : decode 0b0000000000000000#16 = some .nop := by decide
theorem test_decode_tick : decode 0b0001000010100101#16 = some (.tick false 0xA5#8) ∧
    decode 0b0001000111111111#16 = some (.tick true 0xFF#8) := by decide
theorem test_decode_deact : decode 0b0010000000000110#16 = some (.deact .red 2) ∧
    decode 0b0010000000000011#16 = some (.deact .green 3) := by decide
theorem test_decode_act : decode 0b0010000000001110#16 = some (.act .red 2) ∧
    decode 0b0010000000001000#16 = some (.act .green 0) ∧ decode 0b0010000000001111#16 = some (.act .red 3) := by decide
theorem test_decode_txdone : decode 0b0011000000000000#16 = some .txdone := by decide
theorem test_decode_reset : decode 0b1111000000000000#16 = some .reset := by decide
/-- Every reserved word of section 2.1. -/
theorem test_decode_reserved : [0x0001#16, 0x1200#16, 0x1800#16, 0x2010#16, 0x3001#16, 0x4000#16, 0x8000#16,
    0xE000#16, 0xF001#16, 0xFFFF#16].all (fun w => (decode w).isNone) = true := by decide
theorem test_decode_table_word : decodeTableWord 16 0x200E = some (.act .red 2) := by decide

/-! ### One step per event, from the spec's examples -/

/-- 44 R134. -/
theorem test_nop_changes_nothing : exec .nop (joined .announcing 2 true) = .next (joined .announcing 2 true) := by rfl

/-- 42, sequence A, row 8: the eighth equal sample makes channel 2 stable and arms it. -/
theorem test_tick_eighth_sample_arms :
    nextIs (exec (.tick false 0x04#8)
        { State.reset with
          cfg := { State.reset.cfg with retx := 2#8 }
          ch := { State.reset.ch with c2 := { Channel.reset with win := 0x7F#8, fill := 7#4 } } })
      (fun t => t.ch.c2 == { win := 0xFF#8, fill := 8#4, stable := true, rep := false, pend := true, retx := 3#9 }) =
      true := by decide

/-- 41's vectors: `R 15 1 0 1` expires in one ACT_TICK. -/
theorem test_tick_last_count_switches_coil_off :
    nextIs (exec (.tick true 0x00#8) (withDev2 { pos := .red, hold := 15#8, rem := 1#8, coilG := false, coilR := true }))
      (fun t => t.dev.d2 == { pos := .red, hold := 15#8, rem := 0#8, coilG := false, coilR := false }) = true := by decide

/-- 41's vectors: `G 15 7 1 0`, ACT R: switch-over. -/
theorem test_act_switches_over :
    nextIs (exec (.act .red 2) (withDev2 green7))
      (fun t => t.dev.d2 == { pos := .red, hold := 15#8, rem := 15#8, coilG := false, coilR := true }) = true := by decide

/-- 41's vectors: `U 0 0 0 0`, ACT R with hold 0: position recorded, no pulse. -/
theorem test_act_hold_zero_gives_no_pulse :
    nextIs (exec (.act .red 2) State.reset)
      (fun t => t.dev.d2 == { pos := .red, hold := 0#8, rem := 0#8, coilG := false, coilR := false }) = true := by decide

/-- 41's vectors: `G 15 7 1 0`, DEACT G: ignored. -/
theorem test_deact_leaves_the_coil_on :
    nextIs (exec (.deact .green 2) (withDev2 green7)) (fun t => t.dev.d2 == green7) = true := by decide

/-- 95 section 2.3: TXDONE at group 2: telegram 0x290 sent, group 3 next, slot busy. -/
theorem test_txdone_lets_the_next_announce_run :
    nextIs (takeEvent .txdone (joined .announcing 2 true)) (fun t => sentWord t == some 0x290#13 && t.txbuf.busy &&
      t.eng == { phase := .announcing, idx := 3 }) = true := by decide

/-- 95 section 2.3: TXDONE at group 3: telegram 0x290 sent, Connected, the index stays 3. -/
theorem test_txdone_after_the_last_group_connects :
    nextIs (takeEvent .txdone (joined .announcing 3 true)) (fun t => sentWord t == some 0x290#13 && t.txbuf.busy &&
      t.eng == { phase := .connected, idx := 3 }) = true := by decide

/-- 95 section 2.2, first row. -/
theorem test_reset_row_1 :
    nextIs (exec .reset (State.reset.setCfgmem (Memory.ofCfg cfgRow1))) (fun t => t.cfg.mode == .basic &&
      t.cfg.daddrValid && t.cfg.daddr == 5#9 && t.cfg.fbAddr == 20#8 && !t.cfg.split && t.cfg.retx == 2#8 &&
      !t.cfg.reassert && t.dev.d3.hold == 15#8 && fbEnabled t.cfg) = true := by decide

/-- 95 section 2.2, third row: never-configured, feedback address normalised, flags from bit 0. -/
theorem test_reset_row_3 :
    nextIs (exec .reset (State.reset.setCfgmem (Memory.ofCfg cfgRow3))) (fun t => t.cfg.mode == .extended &&
      !t.cfg.daddrValid && t.cfg.daddr == 0#9 && t.cfg.fbAddr == 0#8 && t.cfg.split && t.cfg.retx == 0#8 &&
      t.cfg.reassert && t.dev.d0.hold == 10#8 && !fbEnabled t.cfg) = true := by decide

/-- 40's vectors: (mode, ADDR_LO, ADDR_HI, valid, daddr, xaddr), with the illustrative parameters 1000 and 1511 of R84. -/
theorem test_resolver_vectors : [(AddrMode.basic, 0x05#8, 0x00#8, true, 5#9, 1005),
    (.basic, 0x05#8, 0x80#8, false, 0#9, 999), (.basic, 0x3F#8, 0x07#8, true, 511#9, 1511),
    (.basic, 0x40#8, 0x00#8, false, 0#9, 999), (.basic, 0x0A#8, 0x0B#8, true, 202#9, 1202),
    (.extended, 0x3F#8, 0x01#8, true, 319#9, 1319), (.extended, 0x00#8, 0x02#8, false, 0#9, 999),
    (.extended, 0xFF#8, 0x07#8, false, 0#9, 999), (.basic, 0xFF#8, 0x00#8, false, 0#9, 999)].all
      (fun (mode, lo, hi, valid, daddr, xaddr) =>
      addrValid mode lo hi == valid && resolvedAddr mode lo hi == daddr &&
      extendedAddr 1000 1511 (addrValid mode lo hi) (composedAddr mode lo hi) == xaddr) = true := by decide

/-- 43's vectors: the telegram words of the four groups, non-split and split. -/
theorem test_telegram_vectors :
    (groupOrder.map fun g => (groupTelegram (joined .connected 3 false).cfg pendFile g).word) =
      [0x284#13, 0x284#13, 0x29B#13, 0x29B#13] ∧
    (groupOrder.map fun g => (groupTelegram { (joined .connected 3 false).cfg with split := true } pendFile g).word) =
      [0x280#13, 0x294#13, 0x2A3#13, 0x2B8#13] := by decide

/-- 95 section 2.4: Connected, slot free: group 0 is sent and committed. -/
theorem test_scan_sends_and_commits :
    (trySend true (withChange (joined .connected 3 false))).ch.c0 == { stableAt true 0#9 with rep := true } := by decide

/-- R71: a reserved word is refused. -/
theorem test_reserved_word_refused : step (feed State.reset 0x1200#16) = .refused (.reservedWord 0x1200#16) := by rfl

/-- R161: a trace that does not begin with RESET is refused. -/
theorem test_trace_without_reset_refused : runTrace [lineOf .nop] = .refused .noReset := by rfl

/-- R137: a run of a TICK that sends and a NOP shows what a NOP and that TICK show: the telegram is in a sequence of its own,
and the slot's contents are not shown. -/
theorem test_run_shows_telegrams_apart_from_events :
    (runLines [lineOf (.tick true 0x01#8), lineOf .nop] (withChange (joined .connected 3 false))).behaviour =
      some { telegrams := [0x281#13], coils := [(0#4, 0#4), (0#4, 0#4)], addresses := []
             status := [(true, true), (true, true)] } ∧
    (runLines [lineOf .nop, lineOf (.tick true 0x01#8)] (withChange (joined .connected 3 false))).behaviour =
      (runLines [lineOf (.tick true 0x01#8), lineOf .nop] (withChange (joined .connected 3 false))).behaviour := by decide

/-- R62: a TICK raised at one level and taken at another takes the later one: channel 7 samples 1. -/
theorem test_held_tick_samples_when_taken :
    nextIs (step (((State.reset.setLevels ⟨false, 0x00#8⟩).raise ⟨false, false, true, none⟩).setLevels ⟨false, 0x80#8⟩))
      (fun t => t.ch.c7.win == 0x01#8 && t.ch.c0.win == 0x00#8) = true := by decide

/-- The host's fetch: the placed word is run by the next step. -/
theorem test_placed_word_runs :
    nextIs (step (State.reset.withFetchWord 16 0x2008)) (fun t => t.dev.d0.pos == .green) = true := by decide

/-! ### A concrete case that meets the hypotheses of each obligation, clause by clause -/

theorem test_witness_DecodingAnEncodedEventGivesItBack :
    (Instr.tick true 0xFF#8).wellFormed = true ∧ (Instr.act .red 3).wellFormed = true ∧ Instr.reset.wellFormed = true := by
  decide
theorem test_witness_EncodingADecodedWordGivesItBack :
    decode 0x11FF#16 = some (.tick true 0xFF#8) ∧ decode 0x2000#16 = some (.deact .green 0) := by decide
theorem test_witness_WordSpellsAnEventIffOneRowFits :
    decode 0x200F#16 = some (.act .red 3) ∧ OpRow.mk "ACT" 0x2008#16 0xFFF8#16 ∈ opTable ∧
    (OpRow.mk "ACT" 0x2008#16 0xFFF8#16).fits 0x200F#16 = true := by decide
theorem test_witness_TickAndCommandsAreHeldWhileAnnouncing :
    (joined .announcing 0 true).eng.phase = .announcing ∧ State.reset.eng.phase ≠ .announcing := by decide
/-- One device per branch of R90: another gate, the same gate with `reassert`, the same gate without. -/
theorem test_witness_ActPulsesOrLeavesItsDevice :
    (withDev2 green7).eng.phase ≠ .announcing ∧ ((withDev2 green7).dev.get 2).pos ≠ gateOfCmd .red ∧
    0 < ((withDev2 green7).dev.get 2).hold.toNat ∧ (State.reset.dev.get 0).hold.toNat = 0 ∧
    ((withDev2 green7).dev.get 2).pos = gateOfCmd .green ∧ (withDev2 green7).cfg.reassert = false ∧
    (resetWith cfgRow3 State.reset).cfg.reassert = true ∧ (0 : Fin 4) ≠ 2 := by decide
theorem test_witness_RepeatedActivationChangesNothing :
    ∃ t, State.reset.cfg.reassert = false ∧ exec (.act .red 2) State.reset = .next t := ⟨_, rfl, rfl⟩
theorem test_witness_CommandsIgnoreTheDecoderAddress : (∃ t, exec (.act .green 3) State.reset = .next t) ∧
    ∃ t, exec (.deact .red 0) (joined .announcing 0 true) = .next t := ⟨⟨_, rfl⟩, ⟨_, rfl⟩⟩
theorem test_witness_TxdoneFreesTheSlot :
    (joined .announcing 3 true).eng.phase = .announcing ∧ (joined .connected 3 false).txbuf.busy = false := by decide
theorem test_witness_TickRunsItsThreePartsInOrder : (joined .connected 3 true).eng.phase ≠ .announcing := by decide
/-- `rem` at its boundary values 0, 1 and 255. -/
theorem test_witness_TickCountsDownAndSwitchesCoilsOff : State.reset.eng.phase ≠ .announcing ∧
    (State.reset.dev.get 0).rem.toNat = 0 ∧ ((withDev2 { green7 with rem := 1#8 }).dev.get 2).rem.toNat = 1 ∧
    ((withDev2 { green7 with hold := 255#8, rem := 255#8 }).dev.get 2).rem.toNat = 255 := by decide
/-- A channel that the TICK arms, and one that it does not. -/
theorem test_witness_TickSamplesEveryChannel : State.reset.eng.phase ≠ .announcing ∧
    (Channel.sample { stableAt true 0#9 with win := 0x7F#8, stable := false } 2#8 true).stable = true ∧
    (Channel.sample (stableAt true 0#9) 2#8 false).stable = false := by decide
theorem test_witness_TickLeavesConfigurationAndPorts :
    fbEnabled State.reset.cfg = false ∧ fbEnabled { State.reset.cfg with fbAddr := 128#8, split := true } = false := by
  decide
/-- A pulse of one tick, with a TICK, an identical ACT and a command for another device after it; and the largest hold. -/
theorem test_witness_CoilPulseLastsHoldTicks :
    let s := withDev2 { Device.reset 1#8 with pos := .green }
    0 < (s.dev.get 2).hold.toNat ∧ accepted (.act .red 2) s.eng.phase = true ∧
    ((s.dev.get 2).pos ≠ gateOfCmd .red ∨ s.cfg.reassert = true) ∧
    (∀ i ∈ [Instr.act .red 2, .tick true 0xFF#8, .act .green 1],
      i ≠ .reset ∧ ∀ g', i = .act g' 2 → g' = .red ∧ s.cfg.reassert = false) ∧
    (∃ t, takeEvent (.act .red 2) s = .next t ∧
      ∃ u, takeAccepted [.act .red 2, .tick true 0xFF#8, .act .green 1] t = some u) ∧
    0 < ((withDev2 { green7 with hold := 255#8 }).dev.get 2).hold.toNat := by
  refine ⟨by decide, by decide, by decide, fun i hi => ?_, ⟨_, rfl, _, rfl⟩, by decide⟩
  rcases List.mem_cons.mp hi with rfl | hi
  · exact ⟨by decide, fun g' h => ⟨(Instr.act.inj h).1.symm, rfl⟩⟩
  rcases List.mem_cons.mp hi with rfl | hi
  · exact ⟨by decide, fun g' h => by cases h⟩
  · rw [List.mem_singleton.mp hi]
    exact ⟨by decide, fun g' h => absurd (Instr.act.inj h).2 (by decide)⟩
theorem test_witness_SampleShiftsAndArmsOneChannel :
    let v : Channel := { stableAt true 0#9 with win := 0x7F#8, stable := false, pend := false }
    (v.sample 255#8 true).stable = true ∧ v.stable = false ∧ true ≠ v.rep ∧ (v.sample 255#8 true).retx = 256#9 ∧
    ¬ ((Channel.reset.sample 0#8 true).stable = true) := by decide
/-- Both sides of the equivalence, each way round. -/
theorem test_witness_StableIffLastEightSamplesAgree :
    ((List.replicate 8 true).foldl (fun v b => v.sample 0#8 b) Channel.reset).stable = true ∧
    ((List.replicate 7 false).foldl (fun v b => v.sample 0#8 b) Channel.reset).stable = false ∧
    ((false :: List.replicate 8 true).reverse.take 8 = List.replicate 8 true) := by decide
theorem test_witness_UncommittedChangeOutlivesItsInput : (stableAt true 2#9).pend ≠ (stableAt true 2#9).rep := by decide
theorem test_witness_LanesAreIndependent :
    (0x81#8).getLsbD (7 : Fin 8).val = (0xFE#8).getLsbD (7 : Fin 8).val ∧
    State.reset.ch.get 7 = (withDev2 green7).ch.get 7 ∧ State.reset.cfg.retx = (withDev2 green7).cfg.retx ∧
    (∀ c, groupOf c = 3 → State.reset.ch.get c = { State.reset.ch with c0 := stableAt true 1#9 }.get c) ∧
    groupOf 0 ≠ 3 := by decide
theorem test_witness_QueryReportsStabilityAndChange :
    (∀ c, groupOf c = 3 → ((joined .connected 3 false).ch.get c).stable = true) ∧
    (∃ c, groupOf c = 0 ∧ 0 < ((withChange (joined .connected 3 false)).ch.get c).retx.toNat) := by decide
theorem test_witness_CommitFlushesExactlyOneGroup : groupOf 0 = 0 ∧ groupOf 7 = 3 ∧ groupOf 1 ≠ 1 := by decide
theorem test_witness_CommitsCountDownToZero : 0 < 1 ∧ 0 < 256 := by decide
/-- The clauses at their boundary addresses: 128 non-split, 127 split, 1. -/
theorem test_witness_GroupsHaveTheirTargets :
    let c : Cfg := { State.reset.cfg with fbAddr := 128#8 }
    let d : Cfg := { State.reset.cfg with fbAddr := 127#8, split := true }
    c.split = false ∧ c.fbAddr.toNat ≤ 128 ∧ fbEnabled c = true ∧ d.split = true ∧ d.fbAddr.toNat ≤ 127 ∧
    fbEnabled d = true ∧ fbEnabled { c with fbAddr := 1#8 } = true := by decide
theorem test_witness_TelegramsCarryPendingBits :
    (0 : Fin 8).val / 4 = (1 : Fin 4).val / 2 ∧ (7 : Fin 8).val / 2 = (3 : Fin 4).val ∧
    (7 : Fin 8).val / 2 ≠ (2 : Fin 4).val ∧ (7 : Fin 8).val / 4 = (2 : Fin 4).val / 2 ∧
    State.reset.cfg.split = false ∧ (resetWith cfgRow3 State.reset).cfg.split = true := by decide
theorem test_witness_SendFillsTheSlot : (joined .connected 3 false).txbuf.busy = false := by decide
theorem test_witness_DisabledFeedbackSendsNothing : fbEnabled State.reset.cfg = false ∧
    fbEnabled { State.reset.cfg with fbAddr := 127#8, split := true } = true ∧
    fbEnabled { State.reset.cfg with fbAddr := 128#8, split := true } = false := by decide
/-- The join guard met, and not met with one channel unstable. -/
theorem test_witness_TrySendDisconnectsAndJoins :
    let s := joined .disconnected 0 false
    fbEnabled s.cfg = true ∧ s.eng.phase = .disconnected ∧ (∀ c, (s.ch.get c).stable = true) ∧
    ¬ (∀ c, (({ s.ch with c5 := Channel.reset } : ChFile).get c).stable = true) := by decide
theorem test_witness_AnnounceSendsOneGroupAndAdvances :
    announceEnabled (joined .announcing 0 false) = true ∧ announceEnabled (joined .announcing 3 false) = true ∧
    announceEnabled (joined .announcing 3 true) = false := by decide
/-- The slot busy; group 0 eligible; group 3 eligible and no lower one; no group eligible. -/
theorem test_witness_ScanServesTheFirstEligibleGroup :
    let s := joined .connected 3 false
    let u := { s.ch with c7 := stableAt true 1#9 }
    fbEnabled s.cfg = true ∧ s.eng.phase = .connected ∧ (joined .connected 3 true).txbuf.busy = true ∧
    s.txbuf.busy = false ∧
    ((query (withChange s).ch 0).allStable = true ∧ (query (withChange s).ch 0).anyChanged = true) ∧
    ((query u 3).allStable = true ∧ (query u 3).anyChanged = true ∧
      ∀ h : Fin 4, h < 3 → ¬ ((query u h).allStable = true ∧ (query u h).anyChanged = true)) ∧
    ∀ g : Fin 4, ¬ ((query s.ch g).allStable = true ∧ (query s.ch g).anyChanged = true) := by decide
theorem test_witness_PhaseTransitionTable :
    (∃ t, exec .reset (joined .announcing 2 true) = .next t) ∧ EngineInv (joined .connected 3 true) ∧
    EngineInv (joined .disconnected 0 false) ∧ announceEnabled (joined .announcing 2 false) = true ∧
    announceEnabled (joined .announcing 3 false) = true ∧ (∃ t, exec (.deact .red 3) (joined .connected 3 true) = .next t) :=
  ⟨⟨_, rfl⟩, by decide, by decide, by decide, by decide, ⟨_, rfl⟩⟩
theorem test_witness_ConnectedOnlyThroughAnnouncing :
    (∃ t, step (feed (joined .disconnected 0 false) 0x1100#16) = .next t) ∧
    ∃ t, step (feed (joined .announcing 0 true) 0xF000#16) = .next t ∧ t.eng.phase = .disconnected :=
  ⟨⟨_, rfl⟩, ⟨_, rfl, rfl⟩⟩
theorem test_witness_HandshakeAnnouncesEveryGroupInOrder :
    (joined .announcing 0 false).eng = { phase := .announcing, idx := 0 } ∧
    (joined .announcing 0 false).txbuf.busy = false := by decide
/-- A NOP word taken, the idle step, a trace without RESET and TXDONE, a held word. -/
theorem test_witness_BusyWaitHangsWithoutTxdone :
    let s := feed (joined .announcing 0 true) 0x2008#16
    let v := feed (joined .announcing 3 true) 0x0000#16
    (s.eng.phase = .announcing ∧ s.txbuf.busy = true ∧ s.strobes.rst = false ∧ s.strobes.txDone = false ∧
      s.trace = [{ word := 0x2008#16, cfg := none }] ∧ decode 0x2008#16 = some (.act .green 0) ∧
      (Instr.act .green 0).mnemonic = "ACT") ∧
    (v.eng.phase = .announcing ∧ v.txbuf.busy = true ∧ decode 0x0000#16 = some .nop) ∧
    (∀ u, fetch v ≠ .event .reset u) ∧ (∀ u, fetch v ≠ .event .txdone u) ∧ (∃ t, step v = .next t) ∧
    ∃ t, step (joined .announcing 3 true) = .next t := by
  refine ⟨by decide, by decide, fun u h => ?_, fun u h => ?_, ⟨_, rfl⟩, ⟨_, rfl⟩⟩ <;> cases h
theorem test_witness_StepRunsTheDecodedEvent :
    let s := feed (joined .connected 3 true) 0x11FF#16
    nextStrobe s = none ∧ s.trace = [{ word := 0x11FF#16, cfg := none }] ∧
    decode 0x11FF#16 = some (.tick true 0xFF#8) ∧ (Instr.tick true 0xFF#8).wellFormed = true ∧
    accepted (.tick true 0xFF#8) s.eng.phase = true := by
  refine ⟨rfl, ?_⟩
  decide
theorem test_witness_idle_step : nextStrobe State.reset = none ∧ State.reset.trace = [] := ⟨rfl, rfl⟩
theorem test_witness_HeldEventBlocksTheTrace :
    let s := feed (joined .announcing 3 true) 0x200F#16
    nextStrobe s = none ∧ s.trace = [{ word := 0x200F#16, cfg := none }] ∧ decode 0x200F#16 = some (.act .red 3) ∧
    accepted (.act .red 3) s.eng.phase = false := by
  refine ⟨rfl, ?_⟩
  decide
theorem test_witness_ReservedWordIsRefused :
    let s := feed State.reset 0xFFFF#16
    nextStrobe s = none ∧ s.trace = [{ word := 0xFFFF#16, cfg := none }] ∧ decode 0xFFFF#16 = none := by
  refine ⟨rfl, ?_⟩
  decide
theorem test_witness_StepsNeverFault : step (feed State.reset 0x0001#16) = .refused (.reservedWord 0x0001#16) := by rfl
/-- Each strobe pending, the ones before it not. -/
theorem test_witness_PendingStrobesAreTakenInOrder :
    let c : Command := { device := 3, gate := .red, activate := false }
    (State.reset.raise ⟨true, true, true, some c⟩).strobes.rst = true ∧
    (State.reset.raise ⟨false, true, true, some c⟩).strobes = ⟨false, true, true, some c⟩ ∧
    (State.reset.raise ⟨false, false, true, some c⟩).strobes = ⟨false, false, true, some c⟩ ∧
    (State.reset.raise ⟨false, false, false, some c⟩).strobes = ⟨false, false, false, some c⟩ ∧
    State.reset.eng.phase ≠ .announcing := by decide
theorem test_witness_HeldStrobesStayPending :
    let s := (joined .announcing 0 true).raise ⟨false, true, true, none⟩
    s.eng.phase = .announcing ∧ (∀ u, fetch s ≠ .event .reset u) ∧ ∃ t, step s = .next t := by
  refine ⟨rfl, fun u h => ?_, ⟨_, rfl⟩⟩
  cases h
theorem test_witness_HeldTickReadsTheLevelsWhenTaken :
    let s := (joined .announcing 3 true).raise ⟨false, true, true, none⟩
    s.eng = { phase := .announcing, idx := 3 } ∧ s.strobes.rst = false ∧ s.strobes.txDone = true ∧
    s.strobes.tick = true := by decide
/-- A valid and an invalid decoder address. -/
theorem test_witness_ResetResolvesTheDecoderAddress :
    (cfgOf cfgRow1).daddrValid = true ∧ (cfgOf cfgRow3).daddrValid = false := by decide
theorem test_witness_ResetNormalisesTheFeedbackAddress :
    resolvedFbAddr 128#8 = 128#8 ∧ resolvedFbAddr 129#8 = 0#8 ∧ resolvedFbAddr 255#8 = 0#8 := by decide
/-- Both branches, whatever the open parameters are: address 0, and Invalid. -/
theorem test_witness_ResetResolvesTheExtendedAddress :
    (State.reset.cfg.daddrValid = true ∧ State.reset.cfg.daddr.toNat + Config.xcmdOffset ≤ Config.xcmdMax) ∧
    (cfgOf cfgRow3).daddrValid = false := by
  refine ⟨⟨rfl, ?_⟩, by decide⟩
  show 0 + Config.xcmdOffset ≤ Config.xcmdOffset + Config.xcmdSpan
  omega
theorem test_witness_ResetForgetsWhatPrecededIt :
    (∀ i, State.reset.cfgmem.read i = (joined .announcing 2 true).cfgmem.read i) ∧
    (∃ t, exec .reset State.reset = .next t) ∧ ∃ t, exec .reset (joined .announcing 2 true) = .next t :=
  ⟨fun _ => rfl, ⟨_, rfl⟩, ⟨_, rfl⟩⟩
/-- The boundary addresses: 511 Basic, 63, 256 and 319 Extended; high bits 2 and 7. -/
theorem test_witness_ReachableDecoderAddresses :
    (addrValid .basic 0x3F#8 0x07#8 = true ∧ composedAddr .basic 0x3F#8 0x07#8 = 511) ∧ (0x3F#8).toNat ≤ 63 ∧
    (addrValid .extended 0x3F#8 0x00#8 = true ∧ composedAddr .extended 0x3F#8 0x00#8 = 63) ∧
    (addrValid .extended 0x00#8 0x01#8 = true ∧ composedAddr .extended 0x00#8 0x01#8 = 256) ∧
    (addrValid .extended 0x3F#8 0x01#8 = true ∧ composedAddr .extended 0x3F#8 0x01#8 = 319) ∧
    2 ≤ (0x02#8).toNat % 8 ∧ 2 ≤ (0x07#8).toNat % 8 := by decide
theorem test_witness_ConfigurationStoreReadsBackWrites :
    10 < 11 ∧ 0 ≤ 10 ∧ 10 ≤ 10 ∧ Memory.wf [] = true ∧ (Memory.ofCfg cfgRow1).wf = true ∧ (0 : Nat) ≠ 10 := by decide
theorem test_witness_ConfigurationChangesOnlyAtReset :
    (∀ u, fetch (feed State.reset 0x1000#16) ≠ .event .reset u) ∧ ∃ t, step (feed State.reset 0x1000#16) = .next t :=
  ⟨fun _ h => (by cases h), ⟨_, rfl⟩⟩
theorem test_witness_RunningCoreNeverSeesTheStore :
    Instr.tick true 0xFF#8 ≠ .reset ∧ ∃ t, exec (.tick true 0xFF#8) State.reset = .next t := ⟨by decide, ⟨_, rfl⟩⟩
theorem test_witness_OnlyTickAndResetWriteChannels :
    (∃ t, exec (.act .red 3) State.reset = .next t) ∧ Instr.act .red 3 ≠ .reset ∧
    ∀ b raw, Instr.act .red 3 ≠ .tick b raw := ⟨⟨_, rfl⟩, by decide, fun _ _ h => (by cases h)⟩
theorem test_witness_StepsKeepTheDeviceInvariant :
    (∀ d, DeviceInv ((withDev2 green7).dev.get d)) ∧ ∃ t, step (feed (withDev2 green7) 0x1000#16) = .next t :=
  ⟨by decide, ⟨_, rfl⟩⟩
theorem test_witness_StepsKeepTheChannelInvariant :
    let s := withChange (joined .connected 3 false)
    (∀ c, ChannelInv (1#8) (({ s.ch with c0 := stableAt true 2#9 } : ChFile).get c)) ∧
    ∃ t, step (feed s 0x1101#16) = .next t := by
  refine ⟨by decide, ⟨_, rfl⟩⟩
theorem test_witness_StepsKeepTheEngineInvariant :
    EngineInv (feed (joined .announcing 3 true) 0x3000#16) ∧
    ∃ t, step (feed (joined .announcing 3 true) 0x3000#16) = .next t := ⟨by decide, ⟨_, rfl⟩⟩
/-- Announcing with the slot occupied by a telegram to address 20, TXDONE next. -/
theorem test_witness_StepsKeepEveryInvariant :
    let s := feed ((joined .announcing 1 true).setTxbuf ⟨true, 20#8, false, 0#4⟩) 0x3000#16
    Inv s ∧ ∃ t, step s = .next t := by
  refine ⟨⟨by decide, by decide, by decide, ⟨by decide, by decide, Or.inr ⟨Nat.le_refl _, ?_⟩⟩, by decide, rfl, rfl⟩, ⟨_, rfl⟩⟩
  show Config.xcmdOffset ≤ Config.xcmdOffset + Config.xcmdSpan
  omega
theorem test_witness_OutputsNeverDriveBothCoils : ∀ d, DeviceInv ((withDev2 green7).dev.get d) := by decide

end Sys2Proof.Tests
end

section
/-! PROOFS. The invariants of 10_state.md R28 to R30: each operation keeps the invariant of the record it writes, and one
induction principle for a step carries that to every event. -/

namespace Sys2Proof.Safety

open Sys2Proof.Machine

/-! ### What a step keeps -/

/-- `P` reads CFG, DEV, CH and ENG only: not the slot, the ports, the trace or the counter of free values. -/
def ReadsRecordsOnly (P : State → Prop) : Prop :=
  ∀ s u : State, u.cfg = s.cfg → u.dev = s.dev → u.ch = s.ch → u.eng = s.eng → P s → P u

/-- `P` holds after RESET, and the transitions of TICK, ACT and ANNOUNCE, each where it is enabled, keep it. The other
events write none of the records `P` reads. -/
structure KeptByTransitions (P : State → Prop) : Prop where
  records : ReadsRecordsOnly P
  reset : ∀ b s, P (resetWith b s)
  tick : ∀ busActive raw s, s.eng.phase ≠ .announcing → P s → P (trySend busActive (sample raw (actTick s)))
  act : ∀ gate device s, P s → P (s.modifyDev device fun v => v.activate s.cfg.reassert gate)
  announce : ∀ s, announceEnabled s = true → P s → P (announce s)

theorem KeptByTransitions.exec {P : State → Prop} (k : KeptByTransitions P) {i : Instr} {s t : State}
    (h : exec i s = .next t) (hs : P s) : P t := by
  obtain rfl | ⟨busActive, raw, -, hp, rfl⟩ | ⟨gate, device, -, -, rfl⟩ | ⟨-, rfl⟩ | ⟨-, b, -, rfl⟩ := exec_cases h
  · exact hs
  · exact k.tick busActive raw s hp hs
  · exact k.act gate device s hs
  · exact k.records s _ rfl rfl rfl rfl hs
  · exact k.reset b s

theorem KeptByTransitions.announceStep {P : State → Prop} (k : KeptByTransitions P) {s : State} (hs : P s) :
    P (announceStep s) := by
  obtain ⟨he, h⟩ | ⟨-, h⟩ := announceStep_cases s <;> rw [h]
  · exact k.announce s he hs
  · exact hs

/-- Fetching writes no record, so a step is its event and then the eager ANNOUNCE (R135). -/
theorem KeptByTransitions.step {P : State → Prop} (k : KeptByTransitions P) {s t : State} (h : step s = .next t)
    (hs : P s) : P t := by
  obtain ⟨i, u, hf, v, hv, rfl⟩ | ⟨-, -, rfl⟩ := step_cases h
  · obtain ⟨hcfg, hdev, hch, heng, -⟩ := fetch_event_frame hf
    exact k.announceStep (k.exec hv (k.records s (u.setTxValid false) hcfg hdev hch heng hs))
  · exact hs

/-! ### The device invariant (R28) -/

theorem deviceInv_reset (hold : Byte) : DeviceInv (Device.reset hold) := by
  simp [DeviceInv, Device.reset]

/-- ACT_TICK lowers `rem`, and switches the coils off in the tick in which it becomes 0 (R92). -/
theorem deviceInv_tick {v : Device} (h : DeviceInv v) : DeviceInv v.tick := by
  obtain ⟨hboth, hon, hoff, hle, hunknown⟩ := h
  obtain ⟨hrem, hpos, hhold, hlast, hrest⟩ := v.tick_spec
  have rem_zero (n : Byte) : n = 0#8 ↔ n.toNat = 0 := BitVec.toNat_inj.symm
  rw [rem_zero] at hoff hunknown
  unfold DeviceInv
  rw [rem_zero, hrem, hpos, hhold]
  by_cases h1 : v.rem.toNat = 1
  · obtain ⟨hg, hr⟩ := hlast h1
    simp [hg, hr, h1]
  · obtain ⟨hg, hr⟩ := hrest h1
    rw [hg, hr]
    exact ⟨hboth, fun hp => hon (by omega), fun hz => hoff (by omega), by omega, fun hu => by simp [hunknown hu]⟩

/-- A pulse starts `rem` at `hold`, with the coil of its gate on iff that is not 0 (R90). -/
theorem deviceInv_pulse (v : Device) (g : CmdGate) : DeviceInv (v.pulse g) := by
  obtain ⟨hpos, hhold, hrem, hg, hr⟩ := v.pulse_spec g
  unfold DeviceInv
  rw [hpos, hhold, hrem, ← Bool.not_eq_true, ← Bool.not_eq_true, hg, hr]
  cases g <;> simp +contextual [gateOfCmd]

theorem deviceInv_activate {v : Device} (reassert : Bool) (g : CmdGate) (h : DeviceInv v) :
    DeviceInv (v.activate reassert g) := by
  obtain ⟨-, e⟩ | ⟨-, -, e⟩ := v.activate_cases reassert g <;> rw [e]
  · exact deviceInv_pulse v g
  · exact h

/-- R28, for all four devices. -/
def DevicesInv (s : State) : Prop := ∀ d, DeviceInv (s.dev.get d)

theorem devicesInv_keptByTransitions : KeptByTransitions DevicesInv where
  records s u _ hdev _ _ hs := by
    unfold DevicesInv
    rw [hdev]
    exact hs
  reset b s d := by fin_cases d <;> exact deviceInv_reset _
  tick busActive raw s _ hs d := by
    obtain ⟨-, hdev, -⟩ := trySend_frame busActive (sample raw (actTick s))
    rw [hdev, sample_dev, actTick_get]
    exact deviceInv_tick (hs d)
  act gate device s hs d := by
    by_cases hd : d = device
    · rw [hd, State.modifyDev_dev_same]
      exact deviceInv_activate _ gate (hs device)
    · rw [State.modifyDev_dev_other s _ hd]
      exact hs d
  announce s _ hs := hs

/-- Settles O55: R28, from what ACT_TICK, a pulse and RESET do to one device. -/
theorem stepsKeepTheDeviceInvariant : Obligations.StepsKeepTheDeviceInvariant := by
  unfold Obligations.StepsKeepTheDeviceInvariant
  refine ⟨fun d => ?_, fun s t hs h => devicesInv_keptByTransitions.step h hs⟩
  fin_cases d <;> exact deviceInv_reset _

/-! ### The channel invariant (R29) -/

@[simp] theorem sample_channel_rep (v : Channel) (repeats : Byte) (b : Bool) : (v.sample repeats b).rep = v.rep := rfl

theorem sample_channel_fill (v : Channel) (repeats : Byte) (b : Bool) :
    (v.sample repeats b).fill.toNat = min (v.fill.toNat + 1) 8 := by
  show (BitVec.ofNat 4 (min (v.fill.toNat + 1) 8)).toNat = _
  rw [BitVec.toNat_ofNat]
  omega

theorem sample_channel_stable_iff (v : Channel) (repeats : Byte) (b : Bool) :
    (v.sample repeats b).stable = true ↔
      (v.sample repeats b).fill = 8#4 ∧ ((v.sample repeats b).win = 0x00#8 ∨ (v.sample repeats b).win = 0xFF#8) :=
  stableFlag_iff _ _

/-- Everything SAMPLE can do to the latched change and its repeats (R102): the channel is armed, or it keeps both. -/
theorem sample_channel_arm_cases (v : Channel) (repeats : Byte) (b : Bool) :
    (((v.sample repeats b).stable = true ∧ v.stable = false ∧ b ≠ v.rep) ∧
      (v.sample repeats b).pend = b ∧ (v.sample repeats b).retx.toNat = repeats.toNat + 1) ∨
    (¬ ((v.sample repeats b).stable = true ∧ v.stable = false ∧ b ≠ v.rep) ∧
      (v.sample repeats b).pend = v.pend ∧ (v.sample repeats b).retx = v.retx) := by
  have hlt := repeats.isLt
  rw [← armFlag_iff]
  by_cases harm : armFlag (v.sample repeats b).stable v.stable b v.rep = true
  · refine .inl ⟨harm, if_pos harm, ?_⟩
    have hretx : (v.sample repeats b).retx = BitVec.ofNat 9 (repeats.toNat + 1) := if_pos harm
    rw [hretx, BitVec.toNat_ofNat]
    omega
  · exact .inr ⟨harm, if_neg harm, if_neg harm⟩

theorem commit_channel_retx (v : Channel) : v.commit.retx.toNat = v.retx.toNat - 1 := by
  have hlt := v.retx.isLt
  show (BitVec.ofNat 9 (v.retx.toNat - 1)).toNat = _
  rw [BitVec.toNat_ofNat]
  omega

theorem channelInv_reset (repeats : Byte) : ChannelInv repeats Channel.reset := by
  simp [ChannelInv, Channel.reset]

/-- Arming gives a change its full count, and without arming `pend`, `rep` and `retx` stay (R102). -/
theorem channelInv_sample {v : Channel} (repeats : Byte) (b : Bool) (h : ChannelInv repeats v) :
    ChannelInv repeats (v.sample repeats b) := by
  obtain ⟨-, hle, hfull, -⟩ := h
  have hstable := sample_channel_stable_iff v repeats b
  have hfill := sample_channel_fill v repeats b
  obtain ⟨-, -, hretx⟩ | ⟨-, hpend, hretx⟩ := sample_channel_arm_cases v repeats b
  · exact ⟨hstable, hretx.le, fun _ => hretx, by omega⟩
  · refine ⟨hstable, hretx ▸ hle, ?_, by omega⟩
    rw [hpend, hretx, sample_channel_rep]
    exact hfull

/-- After a COMMIT no change is latched (R104). -/
theorem channelInv_commit {repeats : Byte} {v : Channel} (h : ChannelInv repeats v) : ChannelInv repeats v.commit := by
  obtain ⟨hstable, hle, -, hfill⟩ := h
  have hretx := commit_channel_retx v
  exact ⟨hstable, by omega, fun hne => absurd rfl hne, hfill⟩

/-- R29, for all eight channels, with `CFG.retx`. -/
def ChannelsInv (s : State) : Prop := ∀ c, ChannelInv s.cfg.retx (s.ch.get c)

theorem channelsInv_commit {s : State} (g : Fin 4) (h : ChannelsInv s) : ChannelsInv (commit g s) := fun c => by
  rw [commit_cfg, commit_get]
  split
  · exact channelInv_commit (h c)
  · exact h c

/-- TRY_SEND writes the channels of a group that it sends and commits, and no others (R105). -/
theorem channelsInv_trySend {s : State} (busActive : Bool) (h : ChannelsInv s) : ChannelsInv (trySend busActive s) := by
  obtain ⟨-, e⟩ | ⟨-, -, e⟩ | ⟨-, -, -, -, e⟩ | ⟨-, -, -, -, e⟩ | ⟨-, -, -, e⟩ | ⟨g, -, -, -, -, -, e⟩ :=
    trySend_cases busActive s <;> rw [e]
  case inr.inr.inr.inr.inr =>
    have hsent : ChannelsInv (send g s) := h
    exact channelsInv_commit g hsent
  all_goals exact h

theorem channelsInv_keptByTransitions : KeptByTransitions ChannelsInv where
  records s u hcfg _ hch _ hs := by
    unfold ChannelsInv
    rw [hcfg, hch]
    exact hs
  reset b s c := by
    have hch : (resetWith b s).ch.get c = Channel.reset := ChFile.get_reset c
    rw [hch]
    exact channelInv_reset _
  tick busActive raw s _ hs := by
    refine channelsInv_trySend busActive fun c => ?_
    rw [sample_get]
    exact channelInv_sample _ _ (hs c)
  act gate device s hs := hs
  announce s _ hs := hs

/-- Settles O56: R29, from what SAMPLE, COMMIT and RESET do to one channel. -/
theorem stepsKeepTheChannelInvariant : Obligations.StepsKeepTheChannelInvariant := by
  unfold Obligations.StepsKeepTheChannelInvariant
  refine ⟨fun c => ?_, fun s t hs h => channelsInv_keptByTransitions.step h hs⟩
  have hch : State.reset.ch.get c = Channel.reset := ChFile.get_reset c
  rw [hch]
  exact channelInv_reset _

/-! ### The engine invariant (R30) -/

theorem engineInv_of_disconnected {s : State} (h : s.eng.phase = .disconnected) : EngineInv s :=
  fun hne => absurd h hne

/-- TRY_SEND leaves Disconnected only through the join guard, which it reaches only where feedback is enabled (R115). -/
theorem engineInv_trySend {s : State} (busActive : Bool) (h : EngineInv s) : EngineInv (trySend busActive s) := by
  obtain ⟨-, e⟩ | ⟨-, -, e⟩ | ⟨hfb, -, -, -, e⟩ | ⟨-, -, -, -, e⟩ | ⟨-, -, -, e⟩ | ⟨g, hfb, -, -, -, -, e⟩ :=
    trySend_cases busActive s <;> rw [e]
  case inr.inl => exact engineInv_of_disconnected rfl
  case inr.inr.inl => exact fun _ => hfb
  all_goals exact h

theorem engineInv_keptByTransitions : KeptByTransitions EngineInv where
  records s u hcfg _ _ heng hs := by
    unfold EngineInv
    rw [hcfg, heng]
    exact hs
  reset b s := engineInv_of_disconnected rfl
  tick busActive raw s _ hs := engineInv_trySend busActive hs
  act gate device s hs := hs
  announce s he hs := by
    obtain ⟨hphase, -⟩ := (announceEnabled_iff s).mp he
    exact fun _ => hs (by simp [hphase])

/-- Settles O57: R30, from the cases of TRY_SEND; ANNOUNCE is enabled only where the phase has left Disconnected. -/
theorem stepsKeepTheEngineInvariant : Obligations.StepsKeepTheEngineInvariant := by
  unfold Obligations.StepsKeepTheEngineInvariant
  refine ⟨engineInv_of_disconnected rfl, fun s t hs h => engineInv_keptByTransitions.step h hs, fun p => ?_, fun p => ?_⟩
  · cases p <;> decide
  · cases p <;> decide

end Sys2Proof.Safety
end

section
/-! PROOFS. The address resolver (40_address_resolver.md R81 to R83, R85): what the composed address, its validity and the
two resolved addresses are, as facts of arithmetic, and what RESET installs of them. -/

namespace Sys2Proof.Resolver

open Sys2Proof.Machine

/-! ### Composition (R81) -/

theorem toBit_ofBit (b : Bool) : (AddrMode.ofBit b).toBit = b := by
  cases b <;> rfl

/-- The three low bits of the high byte alone take part in the address. -/
theorem composedAddr_eq (mode : AddrMode) (lo hi : Byte) :
    composedAddr mode lo hi = lo.toNat + hi.toNat % 8 * 2 ^ addrShift mode := by
  rw [composedAddr, BitVec.extractLsb'_toNat, Nat.shiftRight_zero]
  rfl

theorem two_pow_addrShift_ofBit (b : Bool) : 2 ^ addrShift (AddrMode.ofBit b) = if b then 256 else 64 := by
  cases b <;> rfl

theorem composedAddr_basic (lo hi : Byte) : composedAddr .basic lo hi = lo.toNat + hi.toNat % 8 * 64 :=
  composedAddr_eq .basic lo hi

theorem composedAddr_extended (lo hi : Byte) : composedAddr .extended lo hi = lo.toNat + hi.toNat % 8 * 256 :=
  composedAddr_eq .extended lo hi

/-- The sum never wraps: it is at most 255 + 7 * 256. -/
theorem composedAddr_le (mode : AddrMode) (lo hi : Byte) : composedAddr mode lo hi ≤ 2047 := by
  have hlo := lo.isLt
  cases mode with
  | basic => rw [composedAddr_basic]; omega
  | extended => rw [composedAddr_extended]; omega

/-! ### Validity and the resolved addresses (R82, R83) -/

theorem addrValid_iff (mode : AddrMode) (lo hi : Byte) :
    addrValid mode lo hi = true ↔ lo.toNat ≤ 63 ∧ hi.getLsbD 7 = false ∧ composedAddr mode lo hi ≤ 511 := by
  simp [addrValid, and_assoc]

/-- A valid address fits the nine bits of `CFG.daddr`. -/
theorem resolvedAddr_of_valid {mode : AddrMode} {lo hi : Byte} (h : addrValid mode lo hi = true) :
    (resolvedAddr mode lo hi).toNat = composedAddr mode lo hi := by
  obtain ⟨-, -, hle⟩ := (addrValid_iff mode lo hi).mp h
  rw [resolvedAddr, if_pos h, BitVec.toNat_ofNat]
  exact Nat.mod_eq_of_lt (by omega)

theorem resolvedAddr_of_invalid {mode : AddrMode} {lo hi : Byte} (h : addrValid mode lo hi = false) :
    resolvedAddr mode lo hi = 0#9 := by
  simp [resolvedAddr, h]

theorem resolvedFbAddr_toNat (fb : Byte) : (resolvedFbAddr fb).toNat = if fb.toNat > 128 then 0 else fb.toNat := by
  rw [resolvedFbAddr, apply_ite BitVec.toNat]
  rfl

theorem resolvedFbAddr_le (fb : Byte) : (resolvedFbAddr fb).toNat ≤ 128 := by
  rw [resolvedFbAddr_toNat]
  split <;> omega

/-! ### What RESET installs -/

/-- The bytes at the CFGMEM port under the names of R68. -/
def portBytes (m : Memory) : CfgBytes :=
  { addrLo := m.byteAt 0, addrHi := m.byteAt 1, mode := m.byteAt 2, hold0 := m.byteAt 3, hold1 := m.byteAt 4
    hold2 := m.byteAt 5, hold3 := m.byteAt 6, fbAddr := m.byteAt 7, split := m.byteAt 8, retx := m.byteAt 9
    reassert := m.byteAt 10 }

theorem exec_reset (s : State) : exec .reset s = .next (resetWith (portBytes s.cfgmem) s) := execReset_eq s

@[simp] theorem resetWith_cfg (b : CfgBytes) (s : State) : (resetWith b s).cfg = cfgOf b := rfl

/-- Settles O44: R81 and R82 for the bytes at the CFGMEM port. -/
theorem resetResolvesTheDecoderAddress : Obligations.ResetResolvesTheDecoderAddress := by
  unfold Obligations.ResetResolvesTheDecoderAddress
  intro s
  refine ⟨_, exec_reset s, ?_⟩
  rw [resetWith_cfg]
  intro lo hi mode composed
  have hcomposed : composedAddr (AddrMode.ofBit mode) (s.cfgmem.byteAt 0) hi = composed := by
    rw [composedAddr_eq, two_pow_addrShift_ofBit]
  rw [← hcomposed]
  exact ⟨composedAddr_le _ _ _, toBit_ofBit mode, addrValid_iff _ _ _, resolvedAddr_of_valid, resolvedAddr_of_invalid⟩

/-- Settles O45: R83 for byte 7 at the CFGMEM port. -/
theorem resetNormalisesTheFeedbackAddress : Obligations.ResetNormalisesTheFeedbackAddress := by
  unfold Obligations.ResetNormalisesTheFeedbackAddress
  intro s
  exact ⟨_, exec_reset s, resolvedFbAddr_toNat _, resolvedFbAddr_le _⟩

/-! ### Reachable addresses (R85) -/

/-- The valid addresses of a mode, by the value of the low byte and of the three high bits: each pair of values in range
stands in a pair of bytes with the never-configured flag clear. -/
theorem reachable_iff (mode : AddrMode) (n : Nat) :
    (∃ lo hi, addrValid mode lo hi = true ∧ composedAddr mode lo hi = n) ↔
      n ≤ 511 ∧ ∃ l h, l ≤ 63 ∧ h < 8 ∧ l + h * 2 ^ addrShift mode = n := by
  constructor
  · rintro ⟨lo, hi, hvalid, rfl⟩
    obtain ⟨hlo, -, hle⟩ := (addrValid_iff mode lo hi).mp hvalid
    exact ⟨hle, lo.toNat, hi.toNat % 8, hlo, Nat.mod_lt _ (by decide), (composedAddr_eq mode lo hi).symm⟩
  · rintro ⟨hle, l, h, hl, hh, rfl⟩
    have hlo : (BitVec.ofNat 8 l).toNat = l := Nat.mod_eq_of_lt (by omega)
    have hhi : (BitVec.ofNat 8 h).toNat = h := Nat.mod_eq_of_lt (by omega)
    have hflag : (BitVec.ofNat 8 h).getLsbD 7 = false := Nat.testBit_lt_two_pow (hhi.trans_lt (by omega))
    have hsum : composedAddr mode (BitVec.ofNat 8 l) (BitVec.ofNat 8 h) = l + h * 2 ^ addrShift mode := by
      rw [composedAddr_eq, hlo, hhi, Nat.mod_eq_of_lt hh]
    exact ⟨_, _, (addrValid_iff _ _ _).mpr ⟨by omega, hflag, by omega⟩, hsum⟩

/-- Under Basic addressing the two fields are adjacent: six low bits and three high bits. -/
theorem reachable_basic_iff (n : Nat) :
    (∃ lo hi, addrValid .basic lo hi = true ∧ composedAddr .basic lo hi = n) ↔ n ≤ 511 := by
  rw [reachable_iff]
  exact ⟨fun ⟨hle, _⟩ => hle, fun hle => ⟨hle, n % 64, n / 64, by omega, by omega, Nat.mod_add_div' n 64⟩⟩

/-- Under Extended addressing the high bits select a block of 256, of which the low byte reaches the first 64. -/
theorem reachable_extended_iff (n : Nat) :
    (∃ lo hi, addrValid .extended lo hi = true ∧ composedAddr .extended lo hi = n) ↔
      n ≤ 63 ∨ (256 ≤ n ∧ n ≤ 319) := by
  have hshift : 2 ^ addrShift .extended = 256 := rfl
  rw [reachable_iff, hshift]
  constructor
  · rintro ⟨hle, l, h, hl, -, hsum⟩
    omega
  · rintro (hn | ⟨hge, hn⟩)
    · exact ⟨by omega, n, 0, hn, by decide, by omega⟩
    · exact ⟨by omega, n - 256, 1, by omega, by decide, by omega⟩

theorem composedAddr_basic_le (lo hi : Byte) (h : lo.toNat ≤ 63) : composedAddr .basic lo hi ≤ 511 := by
  rw [composedAddr_basic]
  omega

theorem addrValid_extended_of_two_le (lo hi : Byte) (h : 2 ≤ hi.toNat % 8) : addrValid .extended lo hi = false := by
  rw [← Bool.not_eq_true, addrValid_iff, composedAddr_extended]
  omega

/-- Settles O50: R85, a mode at a time. -/
theorem reachableDecoderAddresses : Obligations.ReachableDecoderAddresses := by
  unfold Obligations.ReachableDecoderAddresses
  exact ⟨reachable_basic_iff, composedAddr_basic_le, reachable_extended_iff, addrValid_extended_of_two_le⟩

end Sys2Proof.Resolver
end

section
/-! PROOFS. The device actuator (41_device_actuator.md R92): what a completing TICK leaves of the four devices is ACT_TICK's
work alone, since neither the sampling nor the send decision that follow it writes a device. -/

namespace Sys2Proof.Actuator

open Sys2Proof.Machine

/-- A TICK that is not held completes (R131). -/
theorem exec_tick_of_ready {s : State} (busActive : Bool) (raw : Byte) (h : s.eng.phase ≠ .announcing) :
    exec (.tick busActive raw) s = .next (trySend busActive (sample raw (actTick s))) := by
  rw [exec_tick, whenReady_ready _ h]

/-- After the three parts of a TICK each device is as ACT_TICK left it. -/
theorem tick_parts_dev_get (busActive : Bool) (raw : Byte) (s : State) (d : Fin 4) :
    (trySend busActive (sample raw (actTick s))).dev.get d = (s.dev.get d).tick := by
  obtain ⟨-, hdev, -⟩ := trySend_frame busActive (sample raw (actTick s))
  rw [hdev, sample_dev, actTick_get]

/-- Settles O15: R92, from what ACT_TICK does to one device. -/
theorem tickCountsDownAndSwitchesCoilsOff : Obligations.TickCountsDownAndSwitchesCoilsOff := by
  unfold Obligations.TickCountsDownAndSwitchesCoilsOff
  intro s busActive raw hready
  refine ⟨_, exec_tick_of_ready busActive raw hready, fun d => ?_⟩
  obtain ⟨hrem, hpos, hhold, hlast, hrest⟩ := (s.dev.get d).tick_spec
  rw [tick_parts_dev_get]
  refine ⟨hpos, hhold, hrem, ?_⟩
  split
  case isTrue hone => exact hlast hone
  case isFalse hne => exact hrest hne

end Sys2Proof.Actuator
end

section
/-! PROOFS. The feedback sampler (42_feedback_sampler.md R103): the channels of a group are its even and its odd one, so what
QUERY reads of those two is what it says of the whole group. -/

namespace Sys2Proof.Sampler

open Sys2Proof.Machine

/-- The two channels of a group (R42). -/
theorem groupOf_eq_iff (c : Fin 8) (g : Fin 4) : groupOf c = g ↔ c = chanEven g ∨ c = chanOdd g := by
  simp only [groupOf, chanEven, chanOdd, Fin.ext_iff]
  omega

theorem forall_in_group_iff (g : Fin 4) (P : Fin 8 → Prop) :
    (∀ c, groupOf c = g → P c) ↔ P (chanEven g) ∧ P (chanOdd g) := by
  simp only [groupOf_eq_iff, forall_eq_or_imp, forall_eq]

theorem exists_in_group_iff (g : Fin 4) (P : Fin 8 → Prop) :
    (∃ c, groupOf c = g ∧ P c) ↔ P (chanEven g) ∨ P (chanOdd g) := by
  simp only [groupOf_eq_iff, exists_eq_or_imp, exists_eq_left]

theorem query_allStable_iff (f : ChFile) (g : Fin 4) :
    (query f g).allStable = true ↔ (f.get (chanEven g)).stable = true ∧ (f.get (chanOdd g)).stable = true := by
  rw [query, Bool.and_eq_true]

theorem query_anyChanged_iff (f : ChFile) (g : Fin 4) :
    (query f g).anyChanged = true ↔ 0 < (f.get (chanEven g)).retx.toNat ∨ 0 < (f.get (chanOdd g)).retx.toNat := by
  rw [query, Bool.or_eq_true, decide_eq_true_iff, decide_eq_true_iff]

/-- Settles O23: R103, each formula read over the two channels of the group. -/
theorem queryReportsStabilityAndChange : Obligations.QueryReportsStabilityAndChange := by
  unfold Obligations.QueryReportsStabilityAndChange
  intro f g
  constructor
  · rw [query_allStable_iff, forall_in_group_iff g fun c => (f.get c).stable = true]
  · rw [query_anyChanged_iff, exists_in_group_iff g fun c => 0 < (f.get c).retx.toNat]

end Sys2Proof.Sampler
end

section
/-! PROOFS. The multiplexer (43_feedback_protocol_engine.md R111, R112): where a group's telegram goes, and which channel each
of its data bits carries. -/

namespace Sys2Proof.Multiplexer

open Sys2Proof.Machine

/-! ### The two bits of a group index -/

theorem groupHigh_iff (g : Fin 4) : groupHigh g = true ↔ g.val = 2 ∨ g.val = 3 := by
  rw [groupHigh, decide_eq_true_iff]
  omega

theorem groupLow_iff (g : Fin 4) : groupLow g = true ↔ g.val = 1 ∨ g.val = 3 := by
  rw [groupLow, decide_eq_true_iff]
  omega

/-! ### Target address and half (R111) -/

theorem fbEnabled_iff (c : Cfg) :
    fbEnabled c = true ↔ c.fbAddr.toNat ≠ 0 ∧ (c.split = false ∨ c.fbAddr.toNat ≤ 127) := by
  simp [fbEnabled, ← BitVec.toNat_inj]

theorem groupHalf_of_not_split {c : Cfg} (h : c.split = false) (g : Fin 4) : groupHalf c g = groupHigh g := by
  simp [groupHalf, h]

theorem groupHalf_of_split {c : Cfg} (h : c.split = true) (g : Fin 4) : groupHalf c g = groupLow g := if_pos h

theorem groupAddr_of_not_split {c : Cfg} (h : c.split = false) (g : Fin 4) : groupAddr c g = c.fbAddr := by
  simp [groupAddr, h]

/-- Up to 128 the byte addition of R111 does not wrap. -/
theorem groupAddr_of_split {c : Cfg} (h : c.split = true) (hle : c.fbAddr.toNat ≤ 128) (g : Fin 4) :
    (groupAddr c g).toNat = c.fbAddr.toNat + g.val / 2 := by
  have hhigh : (if groupHigh g then 1#8 else 0#8 : Byte).toNat = g.val / 2 := by
    simp only [apply_ite BitVec.toNat, groupHigh, decide_eq_true_eq, BitVec.toNat_ofNat]
    split <;> omega
  rw [groupAddr, if_pos h, BitVec.toNat_add, hhigh]
  omega

/-- R114 keeps the sum of R111 in the range of a feedback address: a split base address is at most 127. -/
theorem groupAddr_mem_range {c : Cfg} (hle : c.fbAddr.toNat ≤ 128) (hfb : fbEnabled c = true) (g : Fin 4) :
    1 ≤ (groupAddr c g).toNat ∧ (groupAddr c g).toNat ≤ 128 := by
  obtain ⟨hne, hbase⟩ := (fbEnabled_iff c).mp hfb
  cases hs : c.split with
  | false =>
    rw [groupAddr_of_not_split hs]
    omega
  | true =>
    have hbase : c.fbAddr.toNat ≤ 127 := hbase.resolve_left (by simp [hs])
    rw [groupAddr_of_split hs hle]
    omega

/-- Settles O26: R111's table row by row, and its range by R114. -/
theorem groupsHaveTheirTargets : Obligations.GroupsHaveTheirTargets := by
  unfold Obligations.GroupsHaveTheirTargets
  refine fun c g => ⟨fun hs => ⟨groupAddr_of_not_split hs g, ?_⟩, fun hs => ⟨?_, fun hle => groupAddr_of_split hs hle g⟩,
    fun hle hfb => groupAddr_mem_range hle hfb g⟩
  · rw [groupHalf_of_not_split hs, groupHigh_iff]
  · rw [groupHalf_of_split hs, groupLow_iff]

/-! ### The data nibble (R112) -/

/-- The data bit of channel k, whichever telegram carries it. -/
def dataBitOf (k : Fin 8) : Fin 4 := ⟨k.val % 4, by omega⟩

/-- Data bit k mod 4 of the half that holds channel k is channel k. -/
theorem chanOfHalf_dataBitOf {g : Fin 4} {k : Fin 8} (h : k.val / 4 = g.val / 2) :
    chanOfHalf (groupHigh g) (dataBitOf k) = k := by
  apply Fin.ext
  simp only [chanOfHalf, dataBitOf, groupHigh, decide_eq_true_eq]
  split <;> omega

theorem chanOfHalf_eq_chanEven_iff (g i : Fin 4) :
    chanOfHalf (groupHigh g) i = chanEven g ↔ i.val = if groupLow g then 2 else 0 := by
  simp only [chanOfHalf, chanEven, groupHigh, groupLow, Fin.ext_iff, decide_eq_true_eq]
  split <;> split <;> omega

theorem chanOfHalf_eq_chanOdd_iff (g i : Fin 4) :
    chanOfHalf (groupHigh g) i = chanOdd g ↔ i.val = (if groupLow g then 2 else 0) + 1 := by
  simp only [chanOfHalf, chanOdd, groupHigh, groupLow, Fin.ext_iff, decide_eq_true_eq]
  split <;> split <;> omega

theorem groupDataBit_of_not_split {c : Cfg} (h : c.split = false) (f : ChFile) (g i : Fin 4) :
    groupDataBit c f g i = (f.get (chanOfHalf (groupHigh g) i)).pend := by
  simp [groupDataBit, h]

/-- A split telegram is that of its half with the channels of the other group blanked. -/
theorem groupDataBit_of_split {c : Cfg} (h : c.split = true) (f : ChFile) (g i : Fin 4) :
    groupDataBit c f g i =
      if groupOf (chanOfHalf (groupHigh g) i) = g then (f.get (chanOfHalf (groupHigh g) i)).pend else false := by
  simp only [groupDataBit, h, if_true, ← chanOfHalf_eq_chanEven_iff, ← chanOfHalf_eq_chanOdd_iff, Sampler.groupOf_eq_iff]
  by_cases heven : chanOfHalf (groupHigh g) i = chanEven g
  · simp [heven]
  · by_cases hodd : chanOfHalf (groupHigh g) i = chanOdd g
    · rw [hodd] at heven
      simp [heven, hodd]
    · simp [heven, hodd]

theorem groupTelegram_data_getLsbD (c : Cfg) (f : ChFile) (g : Fin 4) (k : Fin 8) :
    (groupTelegram c f g).data.getLsbD (k.val % 4) = groupDataBit c f g (dataBitOf k) :=
  nibble_getLsbD _ (dataBitOf k)

theorem groupTelegram_bit_of_not_split {c : Cfg} (h : c.split = false) (f : ChFile) {g : Fin 4} {k : Fin 8}
    (hk : k.val / 4 = g.val / 2) : (groupTelegram c f g).data.getLsbD (k.val % 4) = (f.get k).pend := by
  rw [groupTelegram_data_getLsbD, groupDataBit_of_not_split h, chanOfHalf_dataBitOf hk]

theorem groupTelegram_bit_of_split {c : Cfg} (h : c.split = true) (f : ChFile) {g : Fin 4} {k : Fin 8}
    (hk : k.val / 4 = g.val / 2) :
    (groupTelegram c f g).data.getLsbD (k.val % 4) = if groupOf k = g then (f.get k).pend else false := by
  rw [groupTelegram_data_getLsbD, groupDataBit_of_split h, chanOfHalf_dataBitOf hk]

/-- Settles O27: R112, the channel at each data bit of a telegram's half. -/
theorem telegramsCarryPendingBits : Obligations.TelegramsCarryPendingBits := by
  unfold Obligations.TelegramsCarryPendingBits
  refine fun c f g k => ⟨fun hs hk => groupTelegram_bit_of_not_split hs f hk, fun hs hg => ?_, fun hs hg hk => ?_⟩
  · rw [groupTelegram_bit_of_split hs f (by omega), if_pos (Fin.ext hg)]
  · rw [groupTelegram_bit_of_split hs f hk, if_neg fun he => hg (congrArg Fin.val he)]

end Sys2Proof.Multiplexer
end

section
/-! PROOFS. The events that every phase accepts and that run no part of the machine (44_event_dispatch.md R133, R134): NOP, and
TXDONE with the ANNOUNCE that it enables. -/

namespace Sys2Proof.EventDispatch

open Sys2Proof.Machine

/-! ### Word and acceptance (R61, R130) -/

theorem decode_nopWord : decode 0x0000#16 = some .nop := by decide

theorem decode_txdoneWord : decode 0x3000#16 = some .txdone := by decide

theorem accepted_nop (p : Phase) : accepted .nop p = true := rfl

theorem accepted_txdone (p : Phase) : accepted .txdone p = true := rfl

/-! ### The freed slot (R133) -/

/-- The state with its slot free and the slot's contents as they were. -/
def freeSlot (s : State) : State := s.setTxbuf { s.txbuf with busy := false }

theorem exec_txdone_eq_freeSlot (s : State) : exec .txdone s = .next (freeSlot s) := exec_txdone s

@[simp] theorem freeSlot_txbuf (s : State) : (freeSlot s).txbuf = { s.txbuf with busy := false } := rfl
@[simp] theorem freeSlot_eng (s : State) : (freeSlot s).eng = s.eng := rfl

theorem freeSlot_portsKept (s : State) : Safety.PortsKept s (freeSlot s) := ⟨fun _ => rfl, rfl, rfl, rfl⟩

/-- Freeing a slot that is free already changes nothing. -/
theorem freeSlot_of_not_busy {s : State} (h : s.txbuf.busy = false) : freeSlot s = s := by
  rw [freeSlot, ← h]
  rfl

/-- A free slot is all that ANNOUNCE waits for in phase Announcing (R118). -/
theorem announceEnabled_freeSlot_iff (s : State) : announceEnabled (freeSlot s) = true ↔ s.eng.phase = .announcing := by
  simp [announceEnabled_iff]

/-- Where ANNOUNCE is enabled, the eager step takes it (R135). -/
theorem announceStep_of_enabled {s : State} (h : announceEnabled s = true) : announceStep s = announce s := if_pos h

/-! ### The obligations -/

/-- Settles O7: R134. -/
theorem nopIsAcceptedAndChangesNothing : Obligations.NopIsAcceptedAndChangesNothing := by
  unfold Obligations.NopIsAcceptedAndChangesNothing
  exact ⟨decode_nopWord, fun s => ⟨accepted_nop s.eng.phase, exec_nop s⟩⟩

/-- Settles O13: R133, from the state with its slot free; the eager ANNOUNCE is then enabled iff the phase is Announcing. -/
theorem txdoneFreesTheSlot : Obligations.TxdoneFreesTheSlot := by
  unfold Obligations.TxdoneFreesTheSlot
  refine ⟨decode_txdoneWord, fun s => ⟨accepted_txdone s.eng.phase, ?effect, fun hfree => ?idempotent⟩⟩
  case effect =>
    have hannounce (hphase : s.eng.phase = .announcing) : announceStep (freeSlot s) = announce (freeSlot s) :=
      announceStep_of_enabled ((announceEnabled_freeSlot_iff s).mpr hphase)
    exact ⟨freeSlot s, exec_txdone_eq_freeSlot s, rfl, rfl, rfl, rfl, rfl, rfl, rfl, rfl, rfl, freeSlot_portsKept s, rfl,
      hannounce⟩
  case idempotent => rw [exec_txdone_eq_freeSlot, freeSlot_of_not_busy hfree]

end Sys2Proof.EventDispatch
end

section
/-! PROOFS. The event word and the telegram word (30_encoding.md): the fields of each word of R61 and of R67 are read back from
it, and a word is put together again from its fields, so `decode` and `encode` are inverse to each other. -/

namespace Sys2Proof.Encoding

open Sys2Proof.Machine

/-! ### The fields of an encoded word -/

theorem ofBool_getLsbD_zero (b : Bool) : (BitVec.ofBool b).getLsbD 0 = b := by
  cases b <;> rfl

theorem fields_encode_tick (busActive : Bool) (raw : Byte) :
    opcodeOf (encode (.tick busActive raw)) = 0x1#4 ∧ (encode (.tick busActive raw)).extractLsb' 9 3 = 0#3 ∧
    (encode (.tick busActive raw)).getLsbD 8 = busActive ∧ (encode (.tick busActive raw)).extractLsb' 0 8 = raw := by
  unfold opcodeOf encode
  refine ⟨?opcode, ?spare, ?bus, ?raw⟩
  case opcode =>
    rw [BitVec.extractLsb'_append_eq_of_le (by decide), BitVec.extractLsb'_append_eq_of_le (by decide)]
    rfl
  case spare =>
    rw [BitVec.extractLsb'_append_eq_of_le (by decide), BitVec.extractLsb'_append_eq_of_le (by decide)]
    rfl
  case bus =>
    rw [BitVec.getLsbD_append, if_neg (by decide), BitVec.getLsbD_append, if_pos (by decide)]
    exact ofBool_getLsbD_zero busActive
  case raw => rw [BitVec.extractLsb'_append_eq_of_add_le (by decide), BitVec.extractLsb'_eq_self]

/-- A command has sixteen words: every field of each is evaluated. -/
theorem fields_encodeCommand (activate : Bool) (gate : CmdGate) (device : Fin 4) :
    opcodeOf (encodeCommand activate gate device) = 0x2#4 ∧
    (encodeCommand activate gate device).extractLsb' 4 8 = 0#8 ∧
    (encodeCommand activate gate device).getLsbD 3 = activate ∧ gateOf (encodeCommand activate gate device) = gate ∧
    deviceOf (encodeCommand activate gate device) = device := by
  revert activate device
  cases gate <;> decide

/-! ### A word from its fields -/

theorem ofBool_getLsbD {n : Nat} (w : BitVec n) (i : Nat) : BitVec.ofBool (w.getLsbD i) = w.extractLsb' i 1 := by
  ext j hj
  obtain rfl : j = 0 := by omega
  simp

theorem word_of_opcode_and_rest (w : EventWord) : opcodeOf w ++ w.extractLsb' 0 12 = w :=
  (BitVec.extractLsb'_append_extractLsb'_eq_extractLsb' rfl).trans BitVec.extractLsb'_eq_self

theorem tickWord_of_fields (w : EventWord) :
    opcodeOf w ++ w.extractLsb' 9 3 ++ BitVec.ofBool (w.getLsbD 8) ++ w.extractLsb' 0 8 = w := by
  rw [ofBool_getLsbD, opcodeOf]
  simp only [BitVec.extractLsb'_append_extractLsb'_eq_extractLsb', BitVec.extractLsb'_eq_self]

theorem toBit_gateOf (w : EventWord) : (gateOf w).toBit = w.getLsbD 2 := by
  unfold gateOf
  cases w.getLsbD 2 <;> rfl

theorem commandWord_of_fields (w : EventWord) :
    opcodeOf w ++ w.extractLsb' 4 8 ++ BitVec.ofBool (w.getLsbD 3) ++ BitVec.ofBool (gateOf w).toBit ++
      BitVec.ofNat 2 (deviceOf w).val = w := by
  have hdevice : BitVec.ofNat 2 (deviceOf w).val = w.extractLsb' 0 2 :=
    BitVec.eq_of_toNat_eq (Nat.mod_eq_of_lt (deviceOf w).isLt)
  rw [hdevice, toBit_gateOf, ofBool_getLsbD, ofBool_getLsbD, opcodeOf]
  simp only [BitVec.extractLsb'_append_extractLsb'_eq_extractLsb', BitVec.extractLsb'_eq_self]

/-! ### Decoding a word by its fields -/

theorem decode_of_tick_fields {w : EventWord} (hop : opcodeOf w = 0x1#4) (hspare : w.extractLsb' 9 3 = 0#3) :
    decode w = some (.tick (w.getLsbD 8) (w.extractLsb' 0 8)) := by
  simp [decode, hop, hspare]

theorem decode_of_command_fields {w : EventWord} (hop : opcodeOf w = 0x2#4) (hspare : w.extractLsb' 4 8 = 0#8) :
    decode w = some (if w.getLsbD 3 then .act (gateOf w) (deviceOf w) else .deact (gateOf w) (deviceOf w)) := by
  simp [decode, hop, hspare, apply_ite some]

theorem decode_encode (i : Instr) : decode (encode i) = some i := by
  cases i with
  | nop => rfl
  | tick busActive raw =>
    obtain ⟨hop, hspare, hbus, hraw⟩ := fields_encode_tick busActive raw
    rw [decode_of_tick_fields hop hspare, hbus, hraw]
  | deact gate device =>
    obtain ⟨hop, hspare, hactivate, hgate, hdevice⟩ := fields_encodeCommand false gate device
    rw [encode, decode_of_command_fields hop hspare, hactivate, hgate, hdevice]
    rfl
  | act gate device =>
    obtain ⟨hop, hspare, hactivate, hgate, hdevice⟩ := fields_encodeCommand true gate device
    rw [encode, decode_of_command_fields hop hspare, hactivate, hgate, hdevice]
    rfl
  | txdone => rfl
  | reset => rfl

/-- The opcode table's number of a word is the word itself. -/
theorem fetchWordOf_toNat (w : EventWord) : fetchWordOf 16 w.toNat = w := by
  rw [fetchWordOf, Nat.mod_eq_of_lt w.isLt, BitVec.ofNat_toNat, BitVec.setWidth_eq]

/-- Settles O1: R61, an event at a time. -/
theorem decodingAnEncodedEventGivesItBack : Obligations.DecodingAnEncodedEventGivesItBack := by
  unfold Obligations.DecodingAnEncodedEventGivesItBack
  intro i _
  rw [decodeTableWord, fetchWordOf_toNat]
  exact ⟨decode_encode i, decode_encode i⟩

/-- Everything `decode` can answer: the opcode selects the event, and every bit that is no operand is 0. -/
theorem decode_cases {w : EventWord} {i : Instr} (h : decode w = some i) :
    (opcodeOf w = 0x0#4 ∧ w.extractLsb' 0 12 = 0#12 ∧ i = .nop) ∨
    (opcodeOf w = 0x1#4 ∧ w.extractLsb' 9 3 = 0#3 ∧ i = .tick (w.getLsbD 8) (w.extractLsb' 0 8)) ∨
    (opcodeOf w = 0x2#4 ∧ w.extractLsb' 4 8 = 0#8 ∧ w.getLsbD 3 = true ∧ i = .act (gateOf w) (deviceOf w)) ∨
    (opcodeOf w = 0x2#4 ∧ w.extractLsb' 4 8 = 0#8 ∧ w.getLsbD 3 = false ∧ i = .deact (gateOf w) (deviceOf w)) ∨
    (opcodeOf w = 0x3#4 ∧ w.extractLsb' 0 12 = 0#12 ∧ i = .txdone) ∨
    (opcodeOf w = 0xF#4 ∧ w.extractLsb' 0 12 = 0#12 ∧ i = .reset) := by
  unfold decode at h
  split_ifs at h <;> simp_all

theorem encode_of_decode {w : EventWord} {i : Instr} (h : decode w = some i) : encode i = w := by
  have hbare := word_of_opcode_and_rest w
  have htick := tickWord_of_fields w
  have hcommand := commandWord_of_fields w
  obtain ⟨hop, hrest, rfl⟩ | ⟨hop, hspare, rfl⟩ | ⟨hop, hspare, hactivate, rfl⟩ | ⟨hop, hspare, hactivate, rfl⟩ |
    ⟨hop, hrest, rfl⟩ | ⟨hop, hrest, rfl⟩ := decode_cases h
  · rwa [hop, hrest] at hbare
  · rwa [hop, hspare] at htick
  · rwa [hop, hspare, hactivate] at hcommand
  · rwa [hop, hspare, hactivate] at hcommand
  · rwa [hop, hrest] at hbare
  · rwa [hop, hrest] at hbare

/-- Settles O2: R61: a decoded word is put together again from its fields. -/
theorem encodingADecodedWordGivesItBack : Obligations.EncodingADecodedWordGivesItBack := by
  unfold Obligations.EncodingADecodedWordGivesItBack
  exact fun _ _ h => encode_of_decode h

/-! ### The opcode table as match and mask (R61) -/

theorem rowFits_encode (i : Instr) : Laws.EncodeFitsItsRow.Statement i := by
  cases i with
  | nop => exact Laws.EncodeFitsItsRow.nop
  | tick busActive raw => exact Laws.EncodeFitsItsRow.tick busActive raw
  | deact gate device => exact Laws.EncodeFitsItsRow.deact gate device
  | act gate device => exact Laws.EncodeFitsItsRow.act gate device
  | txdone => exact Laws.EncodeFitsItsRow.txdone
  | reset => exact Laws.EncodeFitsItsRow.reset

/-- The six rows have six mnemonics. -/
theorem length_rows_of_mnemonic (i : Instr) : (opTable.filter fun r => r.mnemonic = i.mnemonic).length = 1 := by
  cases i <;> rfl

theorem length_rows_fit_encode (i : Instr) : (opTable.filter fun r => r.fits (encode i)).length = 1 := by
  rw [List.filter_congr (rowFits_encode i), length_rows_of_mnemonic]

/-- Reading a field under a mask that covers the field reads the field. -/
theorem extractLsb'_of_and_eq {w m b : EventWord} (h : w &&& m = b) (start len : Nat)
    (hm : m.extractLsb' start len = BitVec.allOnes len) : w.extractLsb' start len = b.extractLsb' start len := by
  rw [← h, BitVec.extractLsb'_and, hm, BitVec.and_allOnes]

theorem decode_isSome_of_and_tickMask {w : EventWord} (h : w &&& 0xFE00#16 = 0x1000#16) : (decode w).isSome = true := by
  have hop : opcodeOf w = 0x1#4 := extractLsb'_of_and_eq h 12 4 rfl
  rw [decode_of_tick_fields hop (extractLsb'_of_and_eq h 9 3 rfl)]
  rfl

theorem decode_isSome_of_and_commandMask {w b : EventWord} (h : w &&& 0xFFF8#16 = b) (hop : opcodeOf b = 0x2#4)
    (hspare : b.extractLsb' 4 8 = 0#8) : (decode w).isSome = true := by
  have hop' : opcodeOf w = 0x2#4 := (extractLsb'_of_and_eq h 12 4 rfl).trans hop
  rw [decode_of_command_fields hop' ((extractLsb'_of_and_eq h 4 8 rfl).trans hspare)]
  rfl

theorem decode_isSome_of_and_fullMask {w : EventWord} (i : Instr) (h : w &&& 0xFFFF#16 = encode i) :
    (decode w).isSome = true := by
  have hw : w = encode i := by rwa [show (0xFFFF#16) = BitVec.allOnes 16 from rfl, BitVec.and_allOnes] at h
  rw [hw, decode_encode]
  rfl

/-- A word that fits some row spells an event. -/
theorem decode_isSome_of_row_fits {w : EventWord} {r : OpRow} (hr : r ∈ opTable) (hfits : r.fits w = true) :
    (decode w).isSome = true := by
  have hmask : w &&& r.mask = r.bits := beq_iff_eq.mp hfits
  simp only [opTable, List.mem_cons, List.not_mem_nil, or_false] at hr
  obtain rfl | rfl | rfl | rfl | rfl | rfl := hr
  · exact decode_isSome_of_and_fullMask .nop hmask
  · exact decode_isSome_of_and_tickMask hmask
  · exact decode_isSome_of_and_commandMask hmask rfl rfl
  · exact decode_isSome_of_and_commandMask hmask rfl rfl
  · exact decode_isSome_of_and_fullMask .txdone hmask
  · exact decode_isSome_of_and_fullMask .reset hmask

/-- Settles O3: a word that decodes is the word of its event, which fits the event's row alone. -/
theorem wordSpellsAnEventIffOneRowFits : Obligations.WordSpellsAnEventIffOneRowFits := by
  unfold Obligations.WordSpellsAnEventIffOneRowFits
  refine fun w => ⟨⟨fun hsome => ?oneRow, fun hone => ?decodes⟩, fun i hi r hr hfits => ?named⟩
  case oneRow =>
    obtain ⟨i, hi⟩ := Option.isSome_iff_exists.mp hsome
    rw [← encode_of_decode hi]
    exact length_rows_fit_encode i
  case decodes =>
    obtain ⟨r, hrow⟩ := List.length_eq_one_iff.mp hone
    have hmem : r ∈ opTable.filter fun r => r.fits w := by simp [hrow]
    obtain ⟨hr, hfits⟩ := List.mem_filter.mp hmem
    exact decode_isSome_of_row_fits hr hfits
  case named =>
    rw [← encode_of_decode hi, rowFits_encode i r hr] at hfits
    exact of_decide_eq_true hfits

/-! ### The telegram word (R67) -/

/-- Each field lies below the next: the appended bits add up. -/
theorem telegramWord_toNat (t : Telegram) :
    t.word.toNat = t.addr.toNat * 32 + t.half.toNat * 16 + t.data.toNat := by
  have hdata := t.data.isLt
  have hhalf := (BitVec.ofBool t.half).isLt
  rw [Telegram.word, BitVec.toNat_append, BitVec.toNat_append, ← Nat.shiftLeft_add_eq_or_of_lt hdata,
    ← Nat.shiftLeft_add_eq_or_of_lt hhalf, BitVec.toNat_ofBool, Nat.shiftLeft_eq, Nat.shiftLeft_eq]
  omega

theorem telegram_ofWord_word (t : Telegram) : Telegram.ofWord t.word = t := by
  obtain ⟨addr, half, data⟩ := t
  unfold Telegram.word Telegram.ofWord
  rw [Telegram.mk.injEq]
  refine ⟨?address, ?halfBit, ?nibble⟩
  case address => rw [BitVec.extractLsb'_append_eq_of_le (by decide), BitVec.extractLsb'_append_eq_left]
  case halfBit =>
    rw [BitVec.getLsbD_append, if_neg (by decide), BitVec.getLsbD_append, if_pos (by decide)]
    exact ofBool_getLsbD_zero half
  case nibble => rw [BitVec.extractLsb'_append_eq_of_add_le (by decide), BitVec.extractLsb'_eq_self]

/-- Settles O5: R67, the value of the word and its fields. -/
theorem telegramWordHoldsItsFields : Obligations.TelegramWordHoldsItsFields := by
  unfold Obligations.TelegramWordHoldsItsFields
  exact fun t => ⟨telegramWord_toNat t, telegram_ofWord_word t⟩

/-! ### Given words and the enumerations (R65, R66) -/

/-- Settles O4: seven words are those of their events, three fit no row. -/
theorem spelledWordsDecodeToTheirEvents : Obligations.SpelledWordsDecodeToTheirEvents := by
  unfold Obligations.SpelledWordsDecodeToTheirEvents
  exact ⟨decode_encode .nop, decode_encode (.tick false 0xA5#8), decode_encode (.tick true 0xFF#8),
    decode_encode (.deact .red 2), decode_encode (.act .red 2), decode_encode .txdone, decode_encode .reset,
    by decide, by decide, by decide⟩

/-- Settles O6: each enumeration a value at a time. -/
theorem enumerationEncodings : Obligations.EnumerationEncodings := by
  unfold Obligations.EnumerationEncodings
  refine ⟨rfl, rfl, rfl, fun p => ?gate, fun g => ?selected, rfl, rfl, rfl, fun p => ?phase⟩
  case gate => cases p <;> decide
  case selected => cases g <;> rfl
  case phase => cases p <;> decide

end Sys2Proof.Encoding
end

section
/-! PROOFS. What an event leaves alone: no event writes the environment's side of the state, and none but RESET writes CFG or a
hold time (10_state.md R11, 20_memory.md R56). -/

namespace Sys2Proof.Frames

open Sys2Proof.Machine

/-- R114: the send decision runs where feedback is enabled only. -/
theorem trySend_of_disabled {s : State} (h : fbEnabled s.cfg = false) (busActive : Bool) : trySend busActive s = s := by
  rw [trySend, h]
  rfl

/-- A TICK's three parts leave CFG and the environment's side. -/
theorem tick_parts_frame (busActive : Bool) (raw : Byte) (s : State) :
    (trySend busActive (sample raw (actTick s))).cfg = s.cfg ∧
    (trySend busActive (sample raw (actTick s))).cfgmem = s.cfgmem ∧
    (trySend busActive (sample raw (actTick s))).strobes = s.strobes ∧
    (trySend busActive (sample raw (actTick s))).levels = s.levels ∧
    (trySend busActive (sample raw (actTick s))).trace = s.trace ∧
    (trySend busActive (sample raw (actTick s))).free = s.free := by
  obtain ⟨hcfg, -, hcfgmem, hstrobes, hlevels, htrace, hfree⟩ := trySend_frame busActive (sample raw (actTick s))
  exact ⟨hcfg, hcfgmem, hstrobes, hlevels, htrace, hfree⟩

theorem exec_ports {i : Instr} {s t : State} (h : exec i s = .next t) :
    t.cfgmem = s.cfgmem ∧ t.strobes = s.strobes ∧ t.levels = s.levels ∧ t.trace = s.trace := by
  obtain rfl | ⟨busActive, raw, -, -, rfl⟩ | ⟨gate, device, -, -, rfl⟩ | ⟨-, rfl⟩ | ⟨-, b, -, rfl⟩ := exec_cases h
  case inr.inl =>
    obtain ⟨-, hcfgmem, hstrobes, hlevels, htrace, -⟩ := tick_parts_frame busActive raw s
    exact ⟨hcfgmem, hstrobes, hlevels, htrace⟩
  all_goals exact ⟨rfl, rfl, rfl, rfl⟩

theorem portsKept_of_eq {s t : State} (hcfgmem : t.cfgmem = s.cfgmem) (hstrobes : t.strobes = s.strobes)
    (hlevels : t.levels = s.levels) (htrace : t.trace = s.trace) : Safety.PortsKept s t :=
  ⟨fun _ => by rw [hcfgmem], hstrobes, hlevels, htrace⟩

theorem exec_cfg {i : Instr} {s t : State} (h : exec i s = .next t) (hi : i ≠ .reset) : t.cfg = s.cfg := by
  obtain rfl | ⟨busActive, raw, -, -, rfl⟩ | ⟨gate, device, -, -, rfl⟩ | ⟨-, rfl⟩ | ⟨rfl, -⟩ := exec_cases h
  case inr.inl =>
    obtain ⟨hcfg, -⟩ := tick_parts_frame busActive raw s
    exact hcfg
  case inr.inr.inr.inr => exact absurd rfl hi
  all_goals rfl

theorem activate_hold (v : Device) (reassert : Bool) (g : CmdGate) : (v.activate reassert g).hold = v.hold := by
  obtain ⟨-, e⟩ | ⟨-, -, e⟩ := v.activate_cases reassert g <;> rw [e]
  obtain ⟨-, hhold, -⟩ := v.pulse_spec g
  exact hhold

theorem exec_hold {i : Instr} {s t : State} (h : exec i s = .next t) (hi : i ≠ .reset) (d : Fin 4) :
    (t.dev.get d).hold = (s.dev.get d).hold := by
  obtain rfl | ⟨busActive, raw, -, -, rfl⟩ | ⟨gate, device, -, -, rfl⟩ | ⟨-, rfl⟩ | ⟨rfl, -⟩ := exec_cases h
  case inr.inl =>
    obtain ⟨-, -, hhold, -⟩ := (s.dev.get d).tick_spec
    rw [Actuator.tick_parts_dev_get, hhold]
  case inr.inr.inl =>
    by_cases hd : d = device
    · rw [hd, State.modifyDev_dev_same, activate_hold]
    · rw [State.modifyDev_dev_other s _ hd]
  case inr.inr.inr.inr => exact absurd rfl hi
  all_goals rfl

end Sys2Proof.Frames
end

section
/-! PROOFS. All invariants together (10_state.md R11, R28 to R30, 20_memory.md R43, 44_event_dispatch.md R135): those that read
the records alone are kept by each transition; a telegram is sent only where feedback is enabled, so at an address in range;
the eager step leaves no ANNOUNCE enabled. -/

namespace Sys2Proof.Invariants

open Sys2Proof.Machine Sys2Proof.Safety

/-! ### The legal values of CFG (R11) -/

theorem xcmdOffset_le_xcmdMax : Config.xcmdOffset ≤ Config.xcmdMax := Nat.le_add_right _ _

theorem extendedAddr_cases (offset max : Nat) (valid : Bool) (composed : Nat) :
    (valid = true ∧ composed + offset ≤ max ∧ extendedAddr offset max valid composed = composed + offset) ∨
    (¬ (valid = true ∧ composed + offset ≤ max) ∧ extendedAddr offset max valid composed = offset - 1) := by
  unfold extendedAddr
  by_cases h : valid = true ∧ composed + offset ≤ max
  · obtain ⟨hvalid, hle⟩ := h
    exact .inl ⟨hvalid, hle, if_pos (by simp [hvalid, hle])⟩
  · exact .inr ⟨h, if_neg (by simpa using h)⟩

theorem cfgInv_cfgOf (b : CfgBytes) : CfgInv (cfgOf b) := by
  refine ⟨Resolver.resolvedFbAddr_le _, Resolver.resolvedAddr_of_invalid, ?_⟩
  obtain ⟨-, hle, hx⟩ | ⟨-, hx⟩ := extendedAddr_cases Config.xcmdOffset Config.xcmdMax (cfgOf b).daddrValid
    (composedAddr (cfgOf b).mode b.addrLo b.addrHi)
  · exact .inr ⟨(Nat.le_add_left _ _).trans hx.ge, hx.trans_le hle⟩
  · exact .inl hx

/-- R11, for the CFG of a state. -/
def CfgLegal (s : State) : Prop := CfgInv s.cfg

theorem cfgLegal_keptByTransitions : KeptByTransitions CfgLegal where
  records s u hcfg _ _ _ hs := by rwa [CfgLegal, hcfg]
  reset b s := cfgInv_cfgOf b
  tick busActive raw s _ hs := by
    obtain ⟨hcfg, -⟩ := Frames.tick_parts_frame busActive raw s
    rwa [CfgLegal, hcfg]
  act gate device s hs := hs
  announce s _ hs := hs

/-! ### The occupied slot (R43) -/

theorem slotInv_of_free {s : State} (h : s.txbuf.busy = false) : SlotInv s := fun hbusy =>
  absurd hbusy (by simp [h])

theorem telegram_wellFormed_iff (t : Telegram) :
    t.wellFormed = true ↔ 1 ≤ t.addr.toNat ∧ t.addr.toNat ≤ 128 := by
  simp [Telegram.wellFormed]

/-- SEND is run where feedback is enabled only, and then the group's address is in range (R111, R114). -/
theorem slotInv_send {s : State} (g : Fin 4) (hcfg : CfgInv s.cfg) (hfb : fbEnabled s.cfg = true) : SlotInv (send g s) :=
  fun _ => by
    obtain ⟨hle, -⟩ := hcfg
    exact (telegram_wellFormed_iff (groupTelegram s.cfg s.ch g)).mpr (Multiplexer.groupAddr_mem_range hle hfb g)

theorem slotInv_trySend {s : State} (busActive : Bool) (hcfg : CfgInv s.cfg) (hs : SlotInv s) :
    SlotInv (trySend busActive s) := by
  obtain ⟨-, e⟩ | ⟨-, -, e⟩ | ⟨-, -, -, -, e⟩ | ⟨-, -, -, -, e⟩ | ⟨-, -, -, e⟩ | ⟨g, hfb, -, -, -, -, e⟩ :=
    trySend_cases busActive s <;> rw [e]
  case inr.inr.inr.inr.inr => exact slotInv_send g hcfg hfb
  all_goals exact hs

theorem slotInv_exec {i : Instr} {s t : State} (h : exec i s = .next t) (hcfg : CfgInv s.cfg) (hs : SlotInv s) :
    SlotInv t := by
  obtain rfl | ⟨busActive, raw, -, -, rfl⟩ | ⟨gate, device, -, -, rfl⟩ | ⟨-, rfl⟩ | ⟨-, b, -, rfl⟩ := exec_cases h
  · exact hs
  · have hsampled : SlotInv (sample raw (actTick s)) := hs
    exact slotInv_trySend busActive hcfg hsampled
  · exact hs
  · exact slotInv_of_free rfl
  · exact slotInv_of_free rfl

/-- While the phase is Announcing, feedback is enabled (R30). -/
theorem slotInv_announceStep {s : State} (hcfg : CfgInv s.cfg) (heng : EngineInv s) (hs : SlotInv s) :
    SlotInv (announceStep s) := by
  obtain ⟨he, e⟩ | ⟨-, e⟩ := announceStep_cases s <;> rw [e]
  · obtain ⟨hphase, -⟩ := (announceEnabled_iff s).mp he
    have hsent : SlotInv (send s.eng.idx s) := slotInv_send s.eng.idx hcfg (heng (by simp [hphase]))
    exact hsent
  · exact hs

theorem slotInv_step {s t : State} (hs : Inv s) (h : step s = .next t) : SlotInv t := by
  obtain ⟨i, u, hf, v, hv, rfl⟩ | ⟨-, -, rfl⟩ := step_cases h
  · obtain ⟨hcfg, -, -, heng, htxbuf, -⟩ := fetch_event_frame hf
    have ucfg : CfgInv (u.setTxValid false).cfg := by
      rw [State.setTxValid_cfg, hcfg]
      exact hs.cfg
    have ueng : EngineInv (u.setTxValid false) := by
      rw [EngineInv, State.setTxValid_cfg, State.setTxValid_eng, hcfg, heng]
      exact hs.engine
    have uslot : SlotInv (u.setTxValid false) := by
      rw [SlotInv, State.setTxValid_txbuf, htxbuf]
      exact hs.slot
    exact slotInv_announceStep (cfgLegal_keptByTransitions.exec hv ucfg) (engineInv_keptByTransitions.exec hv ueng)
      (slotInv_exec hv ucfg uslot)
  · exact hs.slot

/-! ### The eager step and CFGMEM (R135, log entry 11) -/

/-- ANNOUNCE occupies the slot, which disables it. -/
theorem eagerInv_announceStep (s : State) : EagerInv (announceStep s) := by
  obtain ⟨-, e⟩ | ⟨hdisabled, e⟩ := announceStep_cases s <;> rw [e]
  · rw [EagerInv, ← Bool.not_eq_true, announceEnabled_iff, announce_txbuf, send_busy]
    simp
  · exact hdisabled

theorem eagerInv_step {s t : State} (hs : EagerInv s) (h : step s = .next t) : EagerInv t := by
  obtain ⟨i, u, -, v, -, rfl⟩ | ⟨-, -, rfl⟩ := step_cases h
  · exact eagerInv_announceStep v
  · exact hs

/-- A step's CFGMEM is the one before, or eleven bytes that a line of the trace presents. -/
theorem cfgmem_wf_step {s t : State} (hs : s.cfgmem.wf = true) (h : step s = .next t) : t.cfgmem.wf = true := by
  obtain ⟨i, u, hf, v, hv, rfl⟩ | ⟨-, -, rfl⟩ := step_cases h
  · obtain ⟨hcfgmem, -⟩ := Frames.exec_ports hv
    obtain ⟨-, -, -, -, -, -, -, hport, -⟩ := fetch_event_frame hf
    rw [announceStep_cfgmem, hcfgmem, State.setTxValid_cfgmem]
    obtain e | ⟨b, e⟩ := hport <;> rw [e]
    · exact hs
    · exact Memory.wf_ofCfg b
  · exact hs

/-! ### The obligations -/

/-- Settles O58: each invariant is kept by a step, the address in the slot by means of those of CFG and the engine. -/
theorem stepsKeepEveryInvariant : Obligations.StepsKeepEveryInvariant := by
  unfold Obligations.StepsKeepEveryInvariant
  intro s t hs h
  exact
    { device := devicesInv_keptByTransitions.step h hs.device
      channel := channelsInv_keptByTransitions.step h hs.channel
      engine := engineInv_keptByTransitions.step h hs.engine
      cfg := cfgLegal_keptByTransitions.step h hs.cfg
      slot := slotInv_step hs h
      eager := eagerInv_step hs.eager h
      cfgmem := cfgmem_wf_step hs.cfgmem h }

theorem cfgInv_reset : CfgInv State.reset.cfg :=
  ⟨Nat.zero_le _, fun _ => rfl, .inr ⟨Nat.le_refl Config.xcmdOffset, xcmdOffset_le_xcmdMax⟩⟩

/-- Settles O59: each record of the reset state meets its invariant. -/
theorem resetStateMeetsEveryInvariant : Obligations.ResetStateMeetsEveryInvariant := by
  unfold Obligations.ResetStateMeetsEveryInvariant
  obtain ⟨hdevice, -⟩ := stepsKeepTheDeviceInvariant
  obtain ⟨hchannel, -⟩ := stepsKeepTheChannelInvariant
  exact
    { device := hdevice
      channel := hchannel
      engine := engineInv_of_disconnected rfl
      cfg := cfgInv_reset
      slot := slotInv_of_free rfl
      eager := rfl
      cfgmem := rfl }

/-! ### The coil outputs (R26) -/

theorem outputs_ready (busActive : Bool) (raw : Byte) (s : State) :
    (outputs s).ready = accepted (.tick busActive raw) s.eng.phase := rfl

theorem outputs_coilG (s : State) : (outputs s).coilG = nibble fun d => (s.dev.get d).coilG := rfl

theorem outputs_coilR (s : State) : (outputs s).coilR = nibble fun d => (s.dev.get d).coilR := rfl

theorem nibble_and_eq_zero {f g : Fin 4 → Bool} (h : ∀ i, ¬ (f i = true ∧ g i = true)) : nibble f &&& nibble g = 0#4 := by
  refine BitVec.eq_of_getLsbD_eq fun i hi => ?_
  rw [BitVec.getLsbD_and, nibble_getLsbD f ⟨i, hi⟩, nibble_getLsbD g ⟨i, hi⟩]
  simpa using h ⟨i, hi⟩

/-- Settles O60: a device drives at most one of its coils, and `ready` is the acceptance of a TICK. -/
theorem outputsNeverDriveBothCoils : Obligations.OutputsNeverDriveBothCoils := by
  unfold Obligations.OutputsNeverDriveBothCoils
  refine fun s hs => ⟨?_, fun busActive raw => outputs_ready busActive raw s⟩
  rw [outputs_coilG, outputs_coilR]
  refine nibble_and_eq_zero fun d => ?_
  obtain ⟨hboth, -⟩ := hs d
  exact hboth

end Sys2Proof.Invariants
end

section
/-! PROOFS. Acceptance (44_event_dispatch.md R130): which events each phase accepts, and what a held one answers. -/

namespace Sys2Proof.Acceptance

open Sys2Proof.Machine

theorem accepted_tick_iff (busActive : Bool) (raw : Byte) (p : Phase) :
    accepted (.tick busActive raw) p = true ↔ p ≠ .announcing := bne_iff_ne

theorem accepted_act_iff (g : CmdGate) (d : Fin 4) (p : Phase) : accepted (.act g d) p = true ↔ p ≠ .announcing :=
  bne_iff_ne

theorem accepted_deact_iff (g : CmdGate) (d : Fin 4) (p : Phase) : accepted (.deact g d) p = true ↔ p ≠ .announcing :=
  bne_iff_ne

/-- Held or not, a DEACT changes nothing (R91). -/
theorem exec_deact_eq (g : CmdGate) (d : Fin 4) (s : State) : exec (.deact g d) s = .next s := by
  rw [exec_deact, whenReady, ite_self]

theorem exec_act_of_ready {s : State} (g : CmdGate) (d : Fin 4) (h : s.eng.phase ≠ .announcing) :
    exec (.act g d) s = .next (s.modifyDev d fun v => v.activate s.cfg.reassert g) := by
  rw [exec_act, whenReady_ready _ h]

theorem exec_act_of_held {s : State} (g : CmdGate) (d : Fin 4) (h : s.eng.phase = .announcing) :
    exec (.act g d) s = .next s := by
  rw [exec_act, whenReady_held _ h]

theorem exec_tick_of_held {s : State} (busActive : Bool) (raw : Byte) (h : s.eng.phase = .announcing) :
    exec (.tick busActive raw) s = .next s := by
  rw [exec_tick, whenReady_held _ h]

/-- Settles O9: R130, an event at a time. -/
theorem tickAndCommandsAreHeldWhileAnnouncing : Obligations.TickAndCommandsAreHeldWhileAnnouncing := by
  unfold Obligations.TickAndCommandsAreHeldWhileAnnouncing
  exact fun s => ⟨rfl, rfl, rfl, fun busActive raw g d => ⟨accepted_tick_iff busActive raw _, accepted_act_iff g d _,
    accepted_deact_iff g d _, fun hheld =>
      ⟨exec_tick_of_held busActive raw hheld, exec_act_of_held g d hheld, exec_deact_eq g d s⟩⟩⟩

theorem encode_act_activateBit (g : CmdGate) (d : Fin 4) : (encode (.act g d)).getLsbD 3 = true := by
  obtain ⟨-, -, hactivate, -⟩ := Encoding.fields_encodeCommand true g d
  exact hactivate

/-- The eight pairs of words are evaluated. -/
theorem encode_deact_eq_and (g : CmdGate) (d : Fin 4) : encode (.deact g d) = encode (.act g d) &&& 0xFFF7#16 := by
  revert d
  cases g <;> decide

/-- Settles O8: R91, the words from R61 and the effect from R130. -/
theorem deactIsAcceptedAndIgnored : Obligations.DeactIsAcceptedAndIgnored := by
  unfold Obligations.DeactIsAcceptedAndIgnored
  exact fun g d => ⟨encode_act_activateBit g d, encode_deact_eq_and g d, fun s =>
    ⟨accepted_deact_iff g d s.eng.phase, exec_deact_eq g d s⟩⟩

/-- Settles O14: R131, since a TICK that is not held completes. -/
theorem tickRunsItsThreePartsInOrder : Obligations.TickRunsItsThreePartsInOrder := by
  unfold Obligations.TickRunsItsThreePartsInOrder
  exact fun s busActive raw hready => Actuator.exec_tick_of_ready busActive raw hready

/-- Settles O17: R131, from the frame of a TICK's parts; a held TICK keeps the whole state. -/
theorem tickLeavesConfigurationAndPorts : Obligations.TickLeavesConfigurationAndPorts := by
  unfold Obligations.TickLeavesConfigurationAndPorts
  intro s busActive raw
  by_cases hphase : s.eng.phase = .announcing
  · exact ⟨s, exec_tick_of_held busActive raw hphase, rfl, ⟨fun _ => rfl, rfl, rfl, rfl⟩, rfl, fun _ => ⟨rfl, rfl, rfl⟩⟩
  · obtain ⟨hcfg, hcfgmem, hstrobes, hlevels, htrace, hfree⟩ := Frames.tick_parts_frame busActive raw s
    refine ⟨_, Actuator.exec_tick_of_ready busActive raw hphase, hcfg,
      Frames.portsKept_of_eq hcfgmem hstrobes hlevels htrace, hfree, fun hfb => ?_⟩
    have hsampled : fbEnabled (sample raw (actTick s)).cfg = false := hfb
    rw [Frames.trySend_of_disabled hsampled]
    exact ⟨rfl, rfl, rfl⟩

end Sys2Proof.Acceptance
end

section
/-! PROOFS. The device actuator (41_device_actuator.md R90, R93, R95): what ACT does to its device, that a repeated one does
nothing, and how long a pulse lasts over any events that leave it alone. -/

namespace Sys2Proof.Actuator

open Sys2Proof.Machine

/-! ### ACT (R90, R95 (1)) -/

theorem activate_of_pos_eq {v : Device} {g : CmdGate} (h : v.pos = gateOfCmd g) : v.activate false g = v :=
  if_neg (by simp [h])

theorem activate_pos (v : Device) (reassert : Bool) (g : CmdGate) : (v.activate reassert g).pos = gateOfCmd g := by
  obtain ⟨-, e⟩ | ⟨hpos, -, e⟩ := v.activate_cases reassert g <;> rw [e]
  · obtain ⟨hpos, -⟩ := v.pulse_spec g
    exact hpos
  · exact hpos

theorem modifyDev_of_fixed {s : State} {d : Fin 4} {f : Device → Device} (h : f (s.dev.get d) = s.dev.get d) :
    s.modifyDev d f = s := by
  rw [State.modifyDev, h, DevFile.set_get_self]
  rfl

/-- Settles O10: R90, both branches of ACT on its device, and the frame of a write to one device. -/
theorem actPulsesOrLeavesItsDevice : Obligations.ActPulsesOrLeavesItsDevice := by
  unfold Obligations.ActPulsesOrLeavesItsDevice
  intro s g d hready
  refine ⟨_, Acceptance.exec_act_of_ready g d hready, ?device, fun e he => State.modifyDev_dev_other s _ he,
    rfl, rfl, rfl, rfl, rfl, ⟨fun _ => rfl, rfl, rfl, rfl⟩, rfl⟩
  case device =>
    rw [State.modifyDev_dev_same]
    obtain ⟨hpulses, e⟩ | ⟨hpos, hreassert, e⟩ := (s.dev.get d).activate_cases s.cfg.reassert g
    · rw [if_pos hpulses, e]
      exact (s.dev.get d).pulse_spec g
    · rw [if_neg (by simp [hpos, hreassert]), e]

/-- Settles O11: after the first ACT the device stands at the commanded gate. -/
theorem repeatedActivationChangesNothing : Obligations.RepeatedActivationChangesNothing := by
  unfold Obligations.RepeatedActivationChangesNothing
  intro s t g d hreassert h
  obtain ⟨hready, rfl⟩ | ⟨-, rfl⟩ := whenReady_cases ((exec_act g d s).symm.trans h)
  · have hagain := Acceptance.exec_act_of_ready (s := s.modifyDev d fun v => v.activate s.cfg.reassert g) g d hready
    rw [hagain, modifyDev_of_fixed]
    rw [State.modifyDev_cfg, State.modifyDev_dev_same, hreassert]
    exact activate_of_pos_eq (activate_pos _ _ g)
  · exact h

/-- Settles O12: R63, D36; a command reads the phase, its device and `CFG.reassert`. -/
theorem commandsIgnoreTheDecoderAddress : Obligations.CommandsIgnoreTheDecoderAddress := by
  unfold Obligations.CommandsIgnoreTheDecoderAddress
  rintro i s t g d valid addr x (rfl | rfl) h
  · obtain ⟨hready, rfl⟩ | ⟨hheld, rfl⟩ := whenReady_cases ((exec_act g d s).symm.trans h)
    · exact Acceptance.exec_act_of_ready g d hready
    · exact Acceptance.exec_act_of_held g d hheld
  · obtain rfl := Host.Outcome.next.inj ((Acceptance.exec_deact_eq g d s).symm.trans h)
    exact Acceptance.exec_deact_eq g d _

/-! ### The length of a pulse (R93, R95 (2)) -/

/-- The device n TICKs after the start of a pulse to gate g that lasts `hold` TICKs. -/
structure Pulsed (g : CmdGate) (hold n : Nat) (v : Device) : Prop where
  rem : v.rem.toNat = hold - n
  pos : v.pos = gateOfCmd g
  green : v.coilG = true ↔ g = .green ∧ n < hold
  red : v.coilR = true ↔ g = .red ∧ n < hold

theorem pulsed_pulse (v : Device) (g : CmdGate) : Pulsed g v.hold.toNat 0 (v.pulse g) := by
  obtain ⟨hpos, -, hrem, hgreen, hred⟩ := v.pulse_spec g
  exact ⟨by rw [hrem, Nat.sub_zero], hpos, hgreen, hred⟩

/-- ACT_TICK counts one more TICK, and the last one switches the coil off (R92). -/
theorem Pulsed.tick {g : CmdGate} {hold n : Nat} {v : Device} (h : Pulsed g hold n v) : Pulsed g hold (n + 1) v.tick := by
  obtain ⟨hrem, hpos, hgreen, hred⟩ := h
  obtain ⟨trem, tpos, -, hlast, hrest⟩ := v.tick_spec
  refine ⟨by omega, tpos.trans hpos, ?_, ?_⟩
  all_goals
    by_cases hone : v.rem.toNat = 1
    · have hover : ¬ n + 1 < hold := by omega
      simp [hlast hone, hover]
    · have hsame : n + 1 < hold ↔ n < hold := by omega
      simp [hrest hone, hsame, hgreen, hred]

theorem pulsed_iterate {g : CmdGate} {hold : Nat} {s : State} {d : Fin 4} (h : Pulsed g hold 0 (s.dev.get d)) (n : Nat) :
    Pulsed g hold n ((actTick^[n] s).dev.get d) := by
  induction n with
  | zero => exact h
  | succ n ih =>
    rw [Function.iterate_succ_apply', actTick_get]
    exact ih.tick

/-- An event that a running pulse to gate g of device d outlasts: no RESET, and no ACT for d that takes effect. -/
def LeavesPulse (g : CmdGate) (d : Fin 4) (reassert : Bool) (i : Instr) : Prop :=
  i ≠ .reset ∧ ∀ g', i = .act g' d → g' = g ∧ reassert = false

/-- Among the accepted events that leave a pulse, a TICK counts it down and every other one leaves the device. -/
theorem pulsed_exec {g : CmdGate} {hold n : Nat} {d : Fin 4} {i : Instr} {s t : State} (h : exec i s = .next t)
    (haccepted : accepted i s.eng.phase = true) (hi : LeavesPulse g d s.cfg.reassert i)
    (hs : Pulsed g hold n (s.dev.get d)) : Pulsed g hold (n + if isTick i then 1 else 0) (t.dev.get d) := by
  obtain ⟨hreset, hact⟩ := hi
  cases i with
  | nop => cases h; exact hs
  | tick busActive raw =>
    rw [exec_tick_of_ready busActive raw ((Acceptance.accepted_tick_iff _ _ _).mp haccepted)] at h
    cases h
    rw [tick_parts_dev_get]
    exact hs.tick
  | deact gate device =>
    rw [Acceptance.exec_deact_eq] at h
    cases h
    exact hs
  | act gate device =>
    rw [Acceptance.exec_act_of_ready gate device ((Acceptance.accepted_act_iff _ _ _).mp haccepted)] at h
    cases h
    by_cases hd : d = device
    · subst hd
      obtain ⟨rfl, hreassert⟩ := hact gate rfl
      rw [State.modifyDev_dev_same, hreassert, activate_of_pos_eq hs.pos]
      exact hs
    · rw [State.modifyDev_dev_other s _ hd]
      exact hs
  | txdone => cases h; exact hs
  | reset => exact absurd rfl hreset

/-- Taking events keeps CFG, so that an event which leaves the pulse at the start leaves it when it is taken. -/
theorem pulsed_takeAccepted {g : CmdGate} {hold n : Nat} {d : Fin 4} {events : List Instr} {s u : State}
    (h : takeAccepted events s = some u) (hevents : ∀ i ∈ events, LeavesPulse g d s.cfg.reassert i)
    (hs : Pulsed g hold n (s.dev.get d)) : Pulsed g hold (n + events.countP isTick) (u.dev.get d) := by
  induction events generalizing s n with
  | nil => cases h; exact hs
  | cons i rest ih =>
    obtain ⟨haccepted, t, ht, hrest⟩ := takeAccepted_cons_cases h
    obtain ⟨v, hv, rfl⟩ := takeEvent_cases ht
    have hi : LeavesPulse g d s.cfg.reassert i := hevents i (by simp)
    have ⟨hreset, _⟩ := hi
    have hcfg : (announceStep v).cfg = s.cfg := by
      rw [announceStep_cfg, Frames.exec_cfg hv hreset, State.setTxValid_cfg]
    have hpulsed : Pulsed g hold (n + if isTick i then 1 else 0) ((announceStep v).dev.get d) := by
      rw [announceStep_dev]
      exact pulsed_exec hv haccepted hi hs
    have hall := ih hrest (fun j hj => by rw [hcfg]; exact hevents j (by simp [hj])) hpulsed
    rwa [List.countP_cons, Nat.add_comm (rest.countP isTick), ← Nat.add_assoc]

/-- An accepted ACT that takes effect starts the pulse. -/
theorem pulsed_takeEvent_act {g : CmdGate} {d : Fin 4} {s t : State} (h : takeEvent (.act g d) s = .next t)
    (haccepted : accepted (.act g d) s.eng.phase = true) (hpulses : (s.dev.get d).pos ≠ gateOfCmd g ∨ s.cfg.reassert = true) :
    t.cfg = s.cfg ∧ Pulsed g (s.dev.get d).hold.toNat 0 (t.dev.get d) := by
  obtain ⟨v, hv, rfl⟩ := takeEvent_cases h
  have hready : (s.setTxValid false).eng.phase ≠ .announcing := (Acceptance.accepted_act_iff _ _ _).mp haccepted
  rw [Acceptance.exec_act_of_ready g d hready] at hv
  cases hv
  rw [announceStep_cfg, announceStep_dev, State.modifyDev_dev_same]
  refine ⟨rfl, ?_⟩
  have hactivate : (s.dev.get d).activate s.cfg.reassert g = (s.dev.get d).pulse g := if_pos hpulses
  rw [State.setTxValid_dev, State.setTxValid_cfg, hactivate]
  exact pulsed_pulse _ g

/-- Settles O18: R93, by induction on the events, or on the runs of ACT_TICK, after the pulse. -/
theorem coilPulseLastsHoldTicks : Obligations.CoilPulseLastsHoldTicks := by
  unfold Obligations.CoilPulseLastsHoldTicks
  refine ⟨fun s t u g d events _ haccepted hpulses hact hevents hu => ?events, fun s g d n _ => ?microOperation⟩
  case events =>
    obtain ⟨hcfg, hstart⟩ := pulsed_takeEvent_act hact haccepted hpulses
    obtain ⟨hrem, hpos, hgreen, hred⟩ :=
      pulsed_takeAccepted (g := g) (d := d) hu (by rw [hcfg]; exact hevents) hstart
    rw [Nat.zero_add] at hrem hgreen hred
    exact ⟨hrem, hpos, hgreen, hred⟩
  case microOperation =>
    have hstart : Pulsed g (s.dev.get d).hold.toNat 0 ((s.modifyDev d fun v => v.pulse g).dev.get d) := by
      rw [State.modifyDev_dev_same]
      exact pulsed_pulse _ g
    obtain ⟨hrem, hpos, hgreen, hred⟩ := pulsed_iterate hstart n
    exact ⟨hrem, hpos, hgreen, hred⟩

end Sys2Proof.Actuator
end

section
/-! PROOFS. The feedback sampler (42_feedback_sampler.md R100 to R107, R167): one channel under SAMPLE and COMMIT, a channel over
a sequence of samples from RESET, and who writes a channel. -/

namespace Sys2Proof.Sampler

open Sys2Proof.Machine

/-! ### SAMPLE on one channel (R100, R102) -/

theorem sample_channel_win (v : Channel) (repeats : Byte) (b : Bool) : (v.sample repeats b).win = shiftIn v.win b := rfl

/-- Settles O19: R100 and R102, from what SAMPLE does to each field. -/
theorem sampleShiftsAndArmsOneChannel : Obligations.SampleShiftsAndArmsOneChannel := by
  unfold Obligations.SampleShiftsAndArmsOneChannel
  refine fun v repeats b => ⟨?win, Safety.sample_channel_fill v repeats b, Safety.sample_channel_stable_iff v repeats b,
    rfl, ?arm⟩
  case win => rw [sample_channel_win, shiftIn_toNat]
  case arm =>
    obtain ⟨harm, hpend, hretx⟩ | ⟨hquiet, hpend, hretx⟩ := Safety.sample_channel_arm_cases v repeats b
    · rw [if_pos harm]
      exact ⟨hpend, hretx⟩
    · rw [if_neg hquiet]
      exact ⟨hpend, hretx⟩

/-! ### A channel over a sequence of samples (R101, R167) -/

/-- A channel after samples, the oldest first. -/
def Sampled (repeats : Byte) (samples : List Bool) (v : Channel) : Channel :=
  samples.foldl (fun v b => v.sample repeats b) v

theorem sampled_concat (repeats : Byte) (samples : List Bool) (b : Bool) (v : Channel) :
    Sampled repeats (samples ++ [b]) v = (Sampled repeats samples v).sample repeats b := by
  simp [Sampled]

theorem shiftIn_getLsbD_zero (w : Byte) (b : Bool) : (shiftIn w b).getLsbD 0 = b := by
  rw [shiftIn, BitVec.getLsbD_append, if_pos (by decide)]
  exact Encoding.ofBool_getLsbD_zero b

theorem shiftIn_getLsbD_succ (w : Byte) (b : Bool) {i : Nat} (h : i + 1 < 8) :
    (shiftIn w b).getLsbD (i + 1) = w.getLsbD i := by
  rw [shiftIn, BitVec.getLsbD_append, if_neg (by omega), Nat.add_sub_cancel, BitVec.getLsbD_extractLsb', Nat.zero_add]
  simp
  omega

/-- `fill` counts the samples up to 8. -/
theorem sampled_reset_fill (repeats : Byte) (samples : List Bool) :
    (Sampled repeats samples Channel.reset).fill.toNat = min samples.length 8 := by
  induction samples using List.reverseRecOn with
  | nil => rfl
  | append_singleton samples b ih =>
    rw [sampled_concat, Safety.sample_channel_fill, ih, List.length_append, List.length_singleton]
    omega

/-- Bit i of `win` is the sample taken i samples ago, and 0 before the first one. -/
theorem sampled_reset_win (repeats : Byte) (samples : List Bool) {i : Nat} (h : i < 8) :
    (Sampled repeats samples Channel.reset).win.getLsbD i = samples.reverse.getD i false := by
  induction samples using List.reverseRecOn generalizing i with
  | nil => simp [Sampled, Channel.reset]
  | append_singleton samples b ih =>
    rw [sampled_concat, sample_channel_win, List.reverse_concat]
    cases i with
    | zero => rw [shiftIn_getLsbD_zero, List.getD_cons_zero]
    | succ i => rw [shiftIn_getLsbD_succ _ _ h, List.getD_cons_succ, ih (by omega)]

theorem sampled_reset_stable_iff (repeats : Byte) (samples : List Bool) :
    (Sampled repeats samples Channel.reset).stable = true ↔
      (Sampled repeats samples Channel.reset).fill = 8#4 ∧
      ((Sampled repeats samples Channel.reset).win = 0x00#8 ∨ (Sampled repeats samples Channel.reset).win = 0xFF#8) := by
  induction samples using List.reverseRecOn with
  | nil => simp [Sampled, Channel.reset]
  | append_singleton samples b _ =>
    rw [sampled_concat]
    exact Safety.sample_channel_stable_iff _ repeats b

/-- The two windows of a stable channel are those whose eight samples agree. -/
theorem window_constant_iff (w : Byte) : (w = 0x00#8 ∨ w = 0xFF#8) ↔ ∃ b, ∀ i < 8, w.getLsbD i = b := by
  constructor
  · rintro (rfl | rfl)
    · exact ⟨false, by decide⟩
    · exact ⟨true, by decide⟩
  · rintro ⟨b, hb⟩
    cases b with
    | false => exact .inl (BitVec.eq_of_getLsbD_eq fun i hi => by rw [hb i hi, BitVec.getLsbD_zero])
    | true =>
      have hones : ∀ i < 8, (0xFF#8).getLsbD i = true := by decide
      exact .inr (BitVec.eq_of_getLsbD_eq fun i hi => by rw [hb i hi, hones i hi])

theorem take_eq_replicate_iff {l : List Bool} {n : Nat} (h : n ≤ l.length) (b : Bool) :
    l.take n = List.replicate n b ↔ ∀ i < n, l.getD i false = b := by
  simp only [List.eq_replicate_iff, List.forall_mem_iff_getElem, List.length_take, Nat.min_eq_left h, List.getElem_take,
    true_and]
  exact forall₂_congr fun i hi => by rw [List.getD_eq_getElem _ _ (hi.trans_le h)]

/-- Settles O20: R101, since `fill` counts the samples and `win` holds the last eight. -/
theorem stableIffLastEightSamplesAgree : Obligations.StableIffLastEightSamplesAgree := by
  unfold Obligations.StableIffLastEightSamplesAgree
  intro repeats samples
  have hfill : (Sampled repeats samples Channel.reset).fill = 8#4 ↔ 8 ≤ samples.length := by
    rw [← BitVec.toNat_inj, sampled_reset_fill]
    simp
  have hwin : (∃ b, ∀ i < 8, (Sampled repeats samples Channel.reset).win.getLsbD i = b) ↔
      ∃ b, ∀ i < 8, samples.reverse.getD i false = b :=
    exists_congr fun b => forall₂_congr fun i hi => by rw [sampled_reset_win repeats samples hi]
  rw [← Sampled, sampled_reset_stable_iff, hfill, window_constant_iff, hwin]
  refine and_congr_right fun hlen => exists_congr fun b => ?_
  rw [take_eq_replicate_iff (by rwa [List.length_reverse])]

/-- A change that is not committed stays latched: an arming sample differs from `rep`, so it agrees with `pend`. -/
theorem sample_channel_uncommitted {v : Channel} (repeats : Byte) (b : Bool) (h : v.pend ≠ v.rep) :
    (v.sample repeats b).pend = v.pend := by
  obtain ⟨⟨-, -, hb⟩, hpend, -⟩ | ⟨-, hpend, -⟩ := Safety.sample_channel_arm_cases v repeats b <;> rw [hpend]
  rw [Bool.eq_not_of_ne hb, Bool.eq_not_of_ne h]

/-- Settles O21: R167, by induction on the samples. -/
theorem uncommittedChangeOutlivesItsInput : Obligations.UncommittedChangeOutlivesItsInput := by
  unfold Obligations.UncommittedChangeOutlivesItsInput
  intro v repeats samples h
  induction samples generalizing v with
  | nil => exact ⟨rfl, rfl⟩
  | cons b rest ih =>
    have hpend := sample_channel_uncommitted repeats b h
    have hrest := ih (v.sample repeats b) (by rwa [hpend, Safety.sample_channel_rep])
    rwa [hpend, Safety.sample_channel_rep] at hrest

/-! ### COMMIT (R104, R107) -/

/-- Settles O24: R104, a channel of the group and any other, and the frame of a write to the channels. -/
theorem commitFlushesExactlyOneGroup : Obligations.CommitFlushesExactlyOneGroup := by
  unfold Obligations.CommitFlushesExactlyOneGroup
  refine fun s g => ⟨fun c => ?_, rfl, rfl, rfl, rfl, rfl, ⟨fun _ => rfl, rfl, rfl, rfl⟩, rfl⟩
  rw [commit_get]
  by_cases hc : groupOf c = g
  · rw [if_pos hc, if_pos hc]
    exact ⟨rfl, Safety.commit_channel_retx _, rfl, rfl, rfl, rfl⟩
  · rw [if_neg hc, if_neg hc]

/-- Settles O25: R107, by induction on the commits. -/
theorem commitsCountDownToZero : Obligations.CommitsCountDownToZero := by
  unfold Obligations.CommitsCountDownToZero
  intro v n
  induction n with
  | zero => exact ⟨rfl, rfl, fun h => absurd h (Nat.lt_irrefl 0)⟩
  | succ n ih =>
    obtain ⟨hretx, hpend, -⟩ := ih
    rw [Function.iterate_succ_apply', Safety.commit_channel_retx, hretx]
    exact ⟨by omega, hpend, fun _ => hpend⟩

/-! ### Lanes (R106) -/

/-- Settles O22: R106, from the record that each of the three writes or reads. -/
theorem lanesAreIndependent : Obligations.LanesAreIndependent := by
  unfold Obligations.LanesAreIndependent
  refine ⟨fun s t raw raw' c hraw hch hretx => ?sample, fun f f' g hgroup => ?query, fun s t g c hch => ?commit⟩
  case sample => rw [sample_get, sample_get, hch, hretx, rawBit, rawBit, hraw]
  case query =>
    obtain ⟨heven, hodd⟩ := (forall_in_group_iff g fun c => f.get c = f'.get c).mp hgroup
    rw [query, query, heven, hodd]
  case commit =>
    rw [commit_get, commit_get, hch]
    exact ⟨rfl, fun hc => if_neg hc⟩

/-! ### Who writes a channel (R105) -/

/-- The send decision leaves a channel or commits it. -/
theorem trySend_get_cases (busActive : Bool) (s : State) (c : Fin 8) :
    (trySend busActive s).ch.get c = s.ch.get c ∨ (trySend busActive s).ch.get c = (s.ch.get c).commit := by
  obtain ⟨-, e⟩ | ⟨-, -, e⟩ | ⟨-, -, -, -, e⟩ | ⟨-, -, -, -, e⟩ | ⟨-, -, -, e⟩ | ⟨g, -, -, -, -, -, e⟩ :=
    trySend_cases busActive s <;> rw [e]
  case inr.inr.inr.inr.inr =>
    rw [commit_get, send_ch]
    split
    · exact .inr rfl
    · exact .inl rfl
  all_goals exact .inl rfl

theorem trySend_get_frame (busActive : Bool) (s : State) (c : Fin 8) :
    ((trySend busActive s).ch.get c).win = (s.ch.get c).win ∧ ((trySend busActive s).ch.get c).fill = (s.ch.get c).fill ∧
    ((trySend busActive s).ch.get c).stable = (s.ch.get c).stable ∧
    ((trySend busActive s).ch.get c).pend = (s.ch.get c).pend := by
  obtain e | e := trySend_get_cases busActive s c <;> rw [e] <;> exact ⟨rfl, rfl, rfl, rfl⟩

theorem exec_ch {i : Instr} {s t : State} (h : exec i s = .next t) (hreset : i ≠ .reset)
    (htick : ∀ busActive raw, i ≠ .tick busActive raw) : t.ch = s.ch := by
  obtain rfl | ⟨busActive, raw, rfl, -⟩ | ⟨gate, device, -, -, rfl⟩ | ⟨-, rfl⟩ | ⟨rfl, -⟩ := exec_cases h
  case inr.inl => exact absurd rfl (htick busActive raw)
  case inr.inr.inr.inr => exact absurd rfl hreset
  all_goals rfl

/-- Settles O54: R105, over the events and over the send decision of a TICK. -/
theorem onlyTickAndResetWriteChannels : Obligations.OnlyTickAndResetWriteChannels := by
  unfold Obligations.OnlyTickAndResetWriteChannels
  exact ⟨fun _ _ _ h hreset htick => exec_ch h hreset htick, fun s busActive c => trySend_get_frame busActive s c⟩

/-- Settles O16: after a TICK each channel has the window, fill count, `stable` and `pend` that SAMPLE gave it. -/
theorem tickSamplesEveryChannel : Obligations.TickSamplesEveryChannel := by
  unfold Obligations.TickSamplesEveryChannel
  intro s busActive raw hready
  refine ⟨_, Actuator.exec_tick_of_ready busActive raw hready, fun c => ?_⟩
  obtain ⟨hwin, hfill, hstable, hpend⟩ := trySend_get_frame busActive (sample raw (actTick s)) c
  rw [hwin, hfill, hstable, hpend, sample_get, actTick_ch, actTick_cfg, rawBit]
  obtain ⟨win, fill, stable, -, arm⟩ := sampleShiftsAndArmsOneChannel (s.ch.get c) s.cfg.retx (raw.getLsbD c.val)
  refine ⟨win, fill, stable, ?_⟩
  split at arm
  case isTrue harm =>
    obtain ⟨pend, -⟩ := arm
    rw [pend, if_pos harm]
  case isFalse hquiet =>
    obtain ⟨pend, -⟩ := arm
    rw [pend, if_neg hquiet]

end Sys2Proof.Sampler
end

section
/-! PROOFS. The protocol engine (43_feedback_protocol_engine.md R113 to R123): TRY_SEND a row at a time, ANNOUNCE, the scan, the
phases, and the handshake of four telegrams. -/

namespace Sys2Proof.ProtocolEngine

open Sys2Proof.Machine

/-! ### SEND (R113) -/

theorem sentWord_send (g : Fin 4) (s : State) : sentWord (send g s) = some (groupTelegram s.cfg s.ch g).word := rfl

/-- Settles O28: R113, field by field. -/
theorem sendFillsTheSlot : Obligations.SendFillsTheSlot := by
  unfold Obligations.SendFillsTheSlot
  exact fun s g _ => ⟨send_busy g s, rfl, sentWord_send g s, send_cfg g s, send_dev g s, send_ch g s, send_eng g s,
    ⟨fun _ => rfl, send_strobes g s, send_levels g s, send_trace g s⟩, send_free g s⟩

/-! ### TRY_SEND (R114 to R117) -/

theorem trySend_of_busInactive {s : State} (h : fbEnabled s.cfg = true) :
    trySend false s = s.setEng { s.eng with phase := .disconnected } := by
  rw [trySend, h]
  rfl

theorem trySend_of_disconnected {s : State} (h : fbEnabled s.cfg = true) (hphase : s.eng.phase = .disconnected) :
    trySend true s = joinGuard s := by
  simp [trySend, h, hphase]

theorem trySend_of_joined {s : State} (h : fbEnabled s.cfg = true) (hphase : s.eng.phase ≠ .disconnected) :
    trySend true s = scan s := by
  simp [trySend, h, hphase]

theorem allStable_iff (f : ChFile) : allStable f = true ↔ ∀ c, (f.get c).stable = true := by
  simp [allStable, Fin.forall_fin_succ, and_assoc, ChFile.get]

/-- Settles O29: R114, the two ranges of the feedback address. -/
theorem disabledFeedbackSendsNothing : Obligations.DisabledFeedbackSendsNothing := by
  unfold Obligations.DisabledFeedbackSendsNothing
  exact fun s => ⟨Multiplexer.fbEnabled_iff s.cfg, fun h busActive => Frames.trySend_of_disabled h busActive⟩

/-- Settles O30: R116 and R117, both branches of the join guard. -/
theorem trySendDisconnectsAndJoins : Obligations.TrySendDisconnectsAndJoins := by
  unfold Obligations.TrySendDisconnectsAndJoins
  refine fun s hfb => ⟨trySend_of_busInactive hfb, fun hphase => ?_⟩
  rw [trySend_of_disconnected hfb hphase, joinGuard]
  by_cases hstable : ∀ c, (s.ch.get c).stable = true
  · rw [if_pos hstable, if_pos ((allStable_iff s.ch).mpr hstable)]
    rfl
  · rw [if_neg hstable, if_neg fun h => hstable ((allStable_iff s.ch).mp h)]

/-! ### The Connected scan (R119) -/

theorem eligible_iff (f : ChFile) (g : Fin 4) :
    eligible f g = true ↔ (query f g).allStable = true ∧ (query f g).anyChanged = true := by
  rw [eligible, Bool.and_eq_true]

theorem mem_groupOrder (g : Fin 4) : g ∈ groupOrder := by
  revert g
  decide

theorem groupOrder_ascending : groupOrder.Pairwise (· < ·) := by decide

theorem scanGroups_of_none {s : State} (h : ∀ g, eligible s.ch g = false) : scanGroups groupOrder s = s := by
  obtain ⟨-, e⟩ | ⟨-, g, -, -, -, hg, -⟩ := scanGroups_cases groupOrder s
  · exact e
  · exact absurd hg (by simp [h g])

/-- The group served stands in the order before every other eligible one, so it is the least. -/
theorem scanGroups_of_first {s : State} {g : Fin 4} (hg : eligible s.ch g = true)
    (hfirst : ∀ h < g, eligible s.ch h = false) : scanGroups groupOrder s = commit g (send g s) := by
  obtain ⟨hnone, -⟩ | ⟨before, served, after, horder, hbefore, hserved, e⟩ := scanGroups_cases groupOrder s
  · exact absurd hg (by simp [hnone g (mem_groupOrder g)])
  · have hsorted := groupOrder_ascending
    have hmem := mem_groupOrder g
    rw [horder, List.pairwise_append, List.pairwise_cons] at hsorted
    obtain ⟨-, ⟨hafter, -⟩, -⟩ := hsorted
    rw [horder, List.mem_append, List.mem_cons] at hmem
    obtain hmem | rfl | hmem := hmem
    · exact absurd hg (by simp [hbefore g hmem])
    · exact e
    · exact absurd hserved (by simp [hfirst served (hafter g hmem)])

/-- Settles O32: R119, by the cases of the slot and of the first eligible group. -/
theorem scanServesTheFirstEligibleGroup : Obligations.ScanServesTheFirstEligibleGroup := by
  unfold Obligations.ScanServesTheFirstEligibleGroup
  intro s hfb hphase
  simp only [← eligible_iff, Bool.not_eq_true]
  rw [trySend_of_joined hfb (by simp [hphase]), scan]
  refine ⟨fun hbusy => if_pos hbusy, fun hfree g hg hfirst => ?_, fun hfree hnone => ?_⟩
  · rw [hfree]
    exact scanGroups_of_first hg hfirst
  · rw [hfree]
    exact scanGroups_of_none hnone

/-! ### ANNOUNCE (R118) -/

theorem announced_of_last {e : Engine} (h : e.idx = 3) : e.announced = { e with phase := .connected } := if_pos h

theorem announced_of_not_last {e : Engine} (h : e.idx ≠ 3) : e.announced = { e with idx := e.idx + 1 } := if_neg h

theorem val_succ_of_not_last {g : Fin 4} (h : g ≠ 3) : (g + 1).val = g.val + 1 := by
  revert g
  decide

theorem sentWord_announce (s : State) : sentWord (announce s) = some (groupTelegram s.cfg s.ch s.eng.idx).word := rfl

/-- Settles O31: R118, at the last group and at any other. -/
theorem announceSendsOneGroupAndAdvances : Obligations.AnnounceSendsOneGroupAndAdvances := by
  unfold Obligations.AnnounceSendsOneGroupAndAdvances
  refine fun s => ⟨announceEnabled_iff s, fun h => if_neg (by simp [h]), fun h => ?_⟩
  obtain ⟨hphase, -⟩ := (announceEnabled_iff s).mp h
  rw [EventDispatch.announceStep_of_enabled h, announce_eng]
  refine ⟨rfl, sentWord_announce s, ?_, rfl, rfl, rfl, ⟨fun _ => rfl, rfl, rfl, rfl⟩, rfl⟩
  split
  case isTrue hlast =>
    rw [announced_of_last hlast]
    exact ⟨rfl, hlast⟩
  case isFalse hlast =>
    rw [announced_of_not_last hlast]
    exact ⟨hphase, val_succ_of_not_last hlast⟩

/-! ### The phases (R121) -/

theorem exec_reset_phase {s t : State} (h : exec .reset s = .next t) : t.eng.phase = .disconnected := by
  rw [Resolver.exec_reset] at h
  cases h
  rfl

theorem trySend_phase_of_disconnected (busActive : Bool) {s : State} (hphase : s.eng.phase = .disconnected) :
    (trySend busActive s).eng.phase =
      if fbEnabled s.cfg = true ∧ busActive = true ∧ ∀ c, (s.ch.get c).stable = true then .announcing
      else .disconnected := by
  simp only [← allStable_iff]
  obtain ⟨hfb, e⟩ | ⟨-, hbus, e⟩ | ⟨hfb, hbus, -, hstable, e⟩ | ⟨-, -, -, hstable, e⟩ | ⟨-, -, hne, -⟩ |
    ⟨-, -, -, hne, -⟩ := trySend_cases busActive s
  · rw [e, if_neg (by simp [hfb]), hphase]
  · rw [e, if_neg (by simp [hbus])]
    rfl
  · rw [e, if_pos ⟨hfb, hbus, hstable⟩]
    rfl
  · rw [e, if_neg (by simp [hstable]), hphase]
  · exact absurd hphase hne
  · exact absurd hphase hne

theorem trySend_phase_of_connected (busActive : Bool) {s : State} (hfb : fbEnabled s.cfg = true)
    (hphase : s.eng.phase = .connected) :
    (trySend busActive s).eng.phase = if busActive then .connected else .disconnected := by
  obtain ⟨hdisabled, -⟩ | ⟨-, hbus, e⟩ | ⟨-, -, hne, -⟩ | ⟨-, -, hne, -⟩ | ⟨-, hbus, -, e⟩ | ⟨g, -, hbus, -, -, -, e⟩ :=
    trySend_cases busActive s
  · exact absurd hfb (by simp [hdisabled])
  · rw [e, hbus]
    rfl
  · exact absurd hne (by simp [hphase])
  · exact absurd hne (by simp [hphase])
  · rw [e, hbus, hphase]
    rfl
  · rw [e, hbus, commit_eng, send_eng, hphase]
    rfl

/-- A step of ANNOUNCE in terms of the group's number. -/
theorem announced_by_idx (e : Engine) (h : e.phase = .announcing) :
    e.announced.phase = (if e.idx.val < 3 then .announcing else .connected) ∧
    (e.idx.val < 3 → e.announced.idx.val = e.idx.val + 1) := by
  by_cases hlast : e.idx = 3
  · rw [announced_of_last hlast, hlast]
    exact ⟨rfl, fun hlt => absurd hlt (by decide)⟩
  · have hlt : e.idx.val < 3 := by omega
    rw [announced_of_not_last hlast, if_pos hlt]
    exact ⟨h, fun _ => val_succ_of_not_last hlast⟩

theorem exec_eng {i : Instr} {s t : State} (h : exec i s = .next t) (hreset : i ≠ .reset)
    (htick : ∀ busActive raw, i ≠ .tick busActive raw) : t.eng = s.eng := by
  obtain rfl | ⟨busActive, raw, rfl, -⟩ | ⟨gate, device, -, -, rfl⟩ | ⟨-, rfl⟩ | ⟨rfl, -⟩ := exec_cases h
  case inr.inl => exact absurd rfl (htick busActive raw)
  case inr.inr.inr.inr => exact absurd rfl hreset
  all_goals rfl

/-- Settles O33: R121, row by row. -/
theorem phaseTransitionTable : Obligations.PhaseTransitionTable := by
  unfold Obligations.PhaseTransitionTable
  refine ⟨fun s t h => exec_reset_phase h, fun s busActive hinv => ⟨fun hphase => trySend_phase_of_disconnected busActive hphase,
    fun hphase => trySend_phase_of_connected busActive (hinv (by simp [hphase])) hphase⟩, fun s h => ?announce,
    fun s t g d h => ?others⟩
  case announce =>
    obtain ⟨hphase, -⟩ := (announceEnabled_iff s).mp h
    exact announced_by_idx s.eng hphase
  case others =>
    have heng : t.eng = s.eng := by
      obtain h | h | h | h := h <;> exact exec_eng h (by simp) (by simp)
    rw [heng]

/-! ### The handshake (R120, R123) -/

/-- While Announcing, TXDONE frees the slot and the eager ANNOUNCE fills it with the next group (R133, R135). -/
theorem takeEvent_txdone_of_announcing {s : State} {g : Fin 4} (h : s.eng = { phase := .announcing, idx := g }) :
    ∃ t, takeEvent .txdone s = .next t ∧ sentWord t = some (groupTelegram s.cfg s.ch g).word ∧
      t.eng = (Engine.mk .announcing g).announced ∧ t.txbuf.busy = true ∧ t.ch = s.ch ∧ t.dev = s.dev ∧ t.cfg = s.cfg := by
  have henabled : announceEnabled (EventDispatch.freeSlot (s.setTxValid false)) = true := by
    rw [EventDispatch.announceEnabled_freeSlot_iff, State.setTxValid_eng, h]
  have hstep := EventDispatch.announceStep_of_enabled henabled
  refine ⟨announce (EventDispatch.freeSlot (s.setTxValid false)), congrArg Host.Outcome.next hstep, ?_, ?_, rfl, rfl, rfl,
    rfl⟩
  · rw [sentWord_announce, EventDispatch.freeSlot_eng, State.setTxValid_eng, h]
    rfl
  · rw [announce_eng, EventDispatch.freeSlot_eng, State.setTxValid_eng, h]

/-- Settles O35: R120 and R123, the eager ANNOUNCE of group 0 and then a TXDONE for each other group. -/
theorem handshakeAnnouncesEveryGroupInOrder : Obligations.HandshakeAnnouncesEveryGroupInOrder := by
  unfold Obligations.HandshakeAnnouncesEveryGroupInOrder
  intro s heng hfree
  have henabled : announceEnabled s = true := (announceEnabled_iff s).mpr ⟨by rw [heng], hfree⟩
  rw [EventDispatch.announceStep_of_enabled henabled]
  have heng0 : (announce s).eng = { phase := .announcing, idx := 1 } := by rw [announce_eng, heng]; rfl
  have hword0 : sentWord (announce s) = some (groupTelegram s.cfg s.ch 0).word := by rw [sentWord_announce, heng]
  obtain ⟨t1, h1, hword1, heng1, -, hch1, hdev1, hcfg1⟩ := takeEvent_txdone_of_announcing heng0
  obtain ⟨t2, h2, hword2, heng2, -, hch2, hdev2, hcfg2⟩ := takeEvent_txdone_of_announcing (g := 2) heng1
  obtain ⟨t3, h3, hword3, heng3, hbusy3, hch3, hdev3, hcfg3⟩ := takeEvent_txdone_of_announcing (g := 3) heng2
  rw [announce_ch] at hch1
  rw [announce_dev] at hdev1
  rw [announce_cfg] at hcfg1
  rw [announce_cfg, announce_ch] at hword1
  rw [hcfg1, hch1] at hword2
  rw [hcfg2, hcfg1, hch2, hch1] at hword3
  exact ⟨t1, t2, t3, h1, h2, h3, hword0, hword1, hword2, hword3, by rw [heng1]; rfl, by rw [heng2]; rfl,
    by rw [heng3]; rfl, hbusy3, by rw [hch3, hch2, hch1], by rw [hdev3, hdev2, hdev1], by rw [hcfg3, hcfg2, hcfg1]⟩

end Sys2Proof.ProtocolEngine
end

section
/-! PROOFS. Fetching and steps (44_event_dispatch.md R130 to R136, 60_exceptions.md R140, R146): what the core finds when it
looks for its next event, what a step then does, and what no step does while a handshake waits for the transmitter. -/

namespace Sys2Proof.Steps

open Sys2Proof.Machine

/-! ### The pending strobes (R146) -/

theorem nextStrobe_of_rst {s : State} (hrst : s.strobes.rst = true) :
    nextStrobe s = some (.reset, s.setStrobes { s.strobes with rst := false }) := if_pos hrst

theorem nextStrobe_of_txDone {s : State} (hrst : s.strobes.rst = false) (htx : s.strobes.txDone = true) :
    nextStrobe s = some (.txdone, s.setStrobes { s.strobes with txDone := false }) := by
  simp [nextStrobe, hrst, htx]

theorem nextStrobe_of_tick {s : State} (hrst : s.strobes.rst = false) (htx : s.strobes.txDone = false)
    (hphase : s.eng.phase ≠ .announcing) (htick : s.strobes.tick = true) :
    nextStrobe s = some (.tick s.levels.busActive s.levels.raw, s.setStrobes { s.strobes with tick := false }) := by
  have hready := (State.ready_iff s).mpr hphase
  simp [nextStrobe, hrst, htx, hready, htick, instrOfTick]

theorem nextStrobe_of_cmd {s : State} {c : Command} (hrst : s.strobes.rst = false) (htx : s.strobes.txDone = false)
    (hphase : s.eng.phase ≠ .announcing) (htick : s.strobes.tick = false) (hcmd : s.strobes.cmd = some c) :
    nextStrobe s = some (if c.activate then .act c.gate c.device else .deact c.gate c.device,
      s.setStrobes { s.strobes with cmd := none }) := by
  have hready := (State.ready_iff s).mpr hphase
  simp [nextStrobe, hrst, htx, hready, htick, hcmd, instrOfCommand]

theorem nextStrobe_none_of_announcing {s : State} (hphase : s.eng.phase = .announcing) (hrst : s.strobes.rst = false)
    (htx : s.strobes.txDone = false) : nextStrobe s = none := by
  simp [nextStrobe, hrst, htx, State.ready, hphase]

/-- While Announcing only RESET and TXDONE are taken from the ports. -/
theorem nextStrobe_cases_of_announcing {s t : State} {i : Instr} (hphase : s.eng.phase = .announcing)
    (h : nextStrobe s = some (i, t)) :
    i = .reset ∨ (i = .txdone ∧ t = s.setStrobes { s.strobes with txDone := false }) := by
  cases hrst : s.strobes.rst with
  | true =>
    cases (nextStrobe_of_rst hrst).symm.trans h
    exact .inl rfl
  | false =>
    cases htx : s.strobes.txDone with
    | true =>
      cases (nextStrobe_of_txDone hrst htx).symm.trans h
      exact .inr ⟨rfl, rfl⟩
    | false => cases (nextStrobe_none_of_announcing hphase hrst htx).symm.trans h

/-! ### Fetching (R136) -/

theorem fetch_of_strobe {s t : State} {i : Instr} (h : nextStrobe s = some (i, t)) : fetch s = .event i t := by
  simp only [fetch, h]

theorem fetch_of_empty {s : State} (h : nextStrobe s = none) (htrace : s.trace = []) : fetch s = .event .nop s := by
  simp only [fetch, h, htrace]

theorem fetch_of_reserved {s : State} {l : TraceLine} {rest : List TraceLine} (h : nextStrobe s = none)
    (htrace : s.trace = l :: rest) (hword : decode l.word = none) : fetch s = .reserved l.word := by
  simp only [fetch, h, htrace, hword]

/-- The state that gives up the head line of its trace for the event i of that line. -/
def giveUp (s : State) (l : TraceLine) (rest : List TraceLine) (i : Instr) : State :=
  ((s.setTrace rest).presentCfg l.cfg).discardFor i

theorem fetch_of_accepted {s : State} {l : TraceLine} {rest : List TraceLine} {i : Instr} (h : nextStrobe s = none)
    (htrace : s.trace = l :: rest) (hword : decode l.word = some i) (haccepted : accepted i s.eng.phase = true) :
    fetch s = .event i (giveUp s l rest i) := by
  simp only [fetch, h, htrace, hword, haccepted, if_true, giveUp]

theorem fetch_of_held {s : State} {l : TraceLine} {rest : List TraceLine} {i : Instr} (h : nextStrobe s = none)
    (htrace : s.trace = l :: rest) (hword : decode l.word = some i) (hheld : accepted i s.eng.phase = false) :
    fetch s = .held i := by
  simp only [fetch, h, htrace, hword, hheld, Bool.false_eq_true, if_false]

/-- Everything fetching can find. -/
theorem fetch_cases (s : State) :
    (∃ i t, nextStrobe s = some (i, t) ∧ fetch s = .event i t) ∨
    (nextStrobe s = none ∧ s.trace = [] ∧ fetch s = .event .nop s) ∨
    (∃ l rest, s.trace = l :: rest ∧ decode l.word = none ∧ fetch s = .reserved l.word) ∨
    (∃ l rest i, s.trace = l :: rest ∧ decode l.word = some i ∧ fetch s = .event i (giveUp s l rest i)) ∨
    (∃ l rest i, s.trace = l :: rest ∧ decode l.word = some i ∧ fetch s = .held i) := by
  cases hstrobe : nextStrobe s with
  | some taken =>
    obtain ⟨i, t⟩ := taken
    exact .inl ⟨i, t, rfl, fetch_of_strobe hstrobe⟩
  | none =>
    cases htrace : s.trace with
    | nil => exact .inr (.inl ⟨rfl, rfl, fetch_of_empty hstrobe htrace⟩)
    | cons l rest =>
      cases hword : decode l.word with
      | none => exact .inr (.inr (.inl ⟨l, rest, rfl, hword, fetch_of_reserved hstrobe htrace hword⟩))
      | some i =>
        cases haccepted : accepted i s.eng.phase with
        | true =>
          exact .inr (.inr (.inr (.inl ⟨l, rest, i, rfl, hword, fetch_of_accepted hstrobe htrace hword haccepted⟩)))
        | false =>
          exact .inr (.inr (.inr (.inr ⟨l, rest, i, rfl, hword, fetch_of_held hstrobe htrace hword haccepted⟩)))

theorem giveUp_trace (s : State) (l : TraceLine) (rest : List TraceLine) (i : Instr) :
    (giveUp s l rest i).trace = rest := by
  unfold giveUp State.discardFor State.presentCfg
  cases l.cfg <;> split <;> rfl

theorem giveUp_strobes {s : State} {l : TraceLine} {rest : List TraceLine} {i : Instr} (hi : i ≠ .reset) :
    (giveUp s l rest i).strobes = s.strobes := by
  unfold giveUp State.discardFor State.presentCfg
  rw [if_neg hi]
  cases l.cfg <;> rfl

/-! ### A step by what it fetches -/

theorem step_of_event {s u : State} {i : Instr} (h : fetch s = .event i u) : step s = takeEvent i u := by
  simp only [step, h]

theorem step_of_held {s : State} {i : Instr} (h : fetch s = .held i) : step s = .next s := by
  simp only [step, h]

theorem step_of_reserved {s : State} {w : EventWord} (h : fetch s = .reserved w) :
    step s = .refused (.reservedWord w) := by
  simp only [step, h]

theorem takeEvent_of_exec {i : Instr} {s t : State} (h : exec i (s.setTxValid false) = .next t) :
    takeEvent i s = .next (announceStep t) := by
  simp only [takeEvent, h]

/-- Settles O37: R135 and R136, the accepted line and the idle step. -/
theorem stepRunsTheDecodedEvent : Obligations.StepRunsTheDecodedEvent := by
  unfold Obligations.StepRunsTheDecodedEvent
  refine ⟨fun s l rest i hstrobe htrace hword _ haccepted => ?line, fun s hstrobe htrace => ?idle⟩
  case line =>
    obtain ⟨t, ht⟩ := exec_next i ((giveUp s l rest i).setTxValid false)
    refine ⟨t, ht, ?_⟩
    rw [step_of_event (fetch_of_accepted hstrobe htrace hword haccepted), takeEvent_of_exec ht]
  case idle =>
    have hstep := step_of_event (fetch_of_empty hstrobe htrace)
    exact ⟨hstep, hstep.trans (takeEvent_of_exec (exec_nop (s.setTxValid false)))⟩

/-- Settles O38: R136, a held word stays at the head of the trace. -/
theorem heldEventBlocksTheTrace : Obligations.HeldEventBlocksTheTrace := by
  unfold Obligations.HeldEventBlocksTheTrace
  exact fun s l rest i hstrobe htrace hword hheld => step_of_held (fetch_of_held hstrobe htrace hword hheld)

/-- Settles O39: R71. -/
theorem reservedWordIsRefused : Obligations.ReservedWordIsRefused := by
  unfold Obligations.ReservedWordIsRefused
  exact fun s l rest hstrobe htrace hword => step_of_reserved (fetch_of_reserved hstrobe htrace hword)

/-- Everything a step can answer. -/
theorem step_answers (s : State) :
    (∃ t, step s = .next t) ∨ ∃ w, decode w = none ∧ step s = .refused (.reservedWord w) := by
  obtain ⟨i, u, -, h⟩ | ⟨-, -, h⟩ | ⟨l, rest, -, hword, h⟩ | ⟨l, rest, i, -, -, h⟩ | ⟨l, rest, i, -, -, h⟩ := fetch_cases s
  · rw [step_of_event h]
    exact .inl (takeEvent_next i u)
  · rw [step_of_event h]
    exact .inl (takeEvent_next .nop s)
  · exact .inr ⟨l.word, hword, step_of_reserved h⟩
  · rw [step_of_event h]
    exact .inl (takeEvent_next i _)
  · exact .inl ⟨s, step_of_held h⟩

/-- Settles O40: R140 and R71, since every event that is taken answers a next state. -/
theorem stepsNeverFault : Obligations.StepsNeverFault := by
  unfold Obligations.StepsNeverFault
  intro s
  obtain ⟨t, h⟩ | ⟨w, hword, h⟩ := step_answers s <;> rw [h]
  · exact ⟨nofun, nofun⟩
  · refine ⟨nofun, fun r hr => ?_⟩
    cases hr
    exact ⟨w, rfl, hword⟩

/-- Settles O41: R146, one port after another. -/
theorem pendingStrobesAreTakenInOrder : Obligations.PendingStrobesAreTakenInOrder := by
  unfold Obligations.PendingStrobesAreTakenInOrder
  exact fun s => ⟨fun hrst => step_of_event (fetch_of_strobe (nextStrobe_of_rst hrst)),
    fun hrst htx => step_of_event (fetch_of_strobe (nextStrobe_of_txDone hrst htx)),
    fun hrst htx hphase htick => step_of_event (fetch_of_strobe (nextStrobe_of_tick hrst htx hphase htick)),
    fun hrst htx hphase htick c hcmd => step_of_event (fetch_of_strobe (nextStrobe_of_cmd hrst htx hphase htick hcmd))⟩

/-! ### While Announcing (R130, R166) -/

theorem takeEvent_ports {i : Instr} {s t : State} (h : takeEvent i s = .next t) :
    t.strobes = s.strobes ∧ t.trace = s.trace := by
  obtain ⟨v, hv, rfl⟩ := takeEvent_cases h
  obtain ⟨-, hstrobes, -, htrace⟩ := Frames.exec_ports hv
  exact ⟨by rw [announceStep_strobes, hstrobes, State.setTxValid_strobes],
    by rw [announceStep_trace, htrace, State.setTxValid_trace]⟩

/-- While Announcing an event that is no RESET is held, or changes nothing, or frees the slot. -/
theorem exec_of_announcing {i : Instr} {s t : State} (hphase : s.eng.phase = .announcing) (hi : i ≠ .reset)
    (h : exec i s = .next t) : t = s ∨ (i = .txdone ∧ t = EventDispatch.freeSlot s) := by
  obtain rfl | ⟨busActive, raw, -, hready, -⟩ | ⟨gate, device, -, hready, -⟩ | ⟨rfl, rfl⟩ | ⟨rfl, -⟩ := exec_cases h
  · exact .inl rfl
  · exact absurd hphase hready
  · exact absurd hphase hready
  · exact .inr ⟨rfl, rfl⟩
  · exact absurd rfl hi

/-- While Announcing, fetching an event other than RESET leaves the held strobes at their ports. -/
theorem fetch_keeps_held_strobes {s u : State} {i : Instr} (hphase : s.eng.phase = .announcing) (hi : i ≠ .reset)
    (h : fetch s = .event i u) : u.strobes.tick = s.strobes.tick ∧ u.strobes.cmd = s.strobes.cmd := by
  obtain ⟨j, t, hstrobe, e⟩ | ⟨-, -, e⟩ | ⟨l, rest, -, -, e⟩ | ⟨l, rest, j, -, -, e⟩ | ⟨l, rest, j, -, -, e⟩ := fetch_cases s
  · cases e.symm.trans h
    obtain rfl | ⟨rfl, rfl⟩ := nextStrobe_cases_of_announcing hphase hstrobe
    · exact absurd rfl hi
    · exact ⟨rfl, rfl⟩
  · cases e.symm.trans h
    exact ⟨rfl, rfl⟩
  · cases e.symm.trans h
  · cases e.symm.trans h
    rw [giveUp_strobes hi]
    exact ⟨rfl, rfl⟩
  · cases e.symm.trans h

/-- Settles O42: R130, since no event writes the strobes and fetching leaves the held ones. -/
theorem heldStrobesStayPending : Obligations.HeldStrobesStayPending := by
  unfold Obligations.HeldStrobesStayPending
  intro s t hphase hnoReset h
  obtain ⟨i, u, hf, v, hv, rfl⟩ | ⟨-, -, rfl⟩ := step_cases h
  · have hi : i ≠ .reset := by
      rintro rfl
      exact hnoReset u hf
    obtain ⟨-, hstrobes, -⟩ := Frames.exec_ports hv
    rw [announceStep_strobes, hstrobes, State.setTxValid_strobes]
    exact fetch_keeps_held_strobes hphase hi hf
  · exact ⟨rfl, rfl⟩

/-- Settles O43: TXDONE ends the handshake, and the TICK then stands first at the ports. -/
theorem heldTickReadsTheLevelsWhenTaken : Obligations.HeldTickReadsTheLevelsWhenTaken := by
  unfold Obligations.HeldTickReadsTheLevelsWhenTaken
  intro s l heng hrst htx htick
  obtain ⟨t, ht, -, teng, -⟩ := ProtocolEngine.takeEvent_txdone_of_announcing
    (s := s.setStrobes { s.strobes with txDone := false }) heng
  obtain ⟨tstrobes, -⟩ := takeEvent_ports ht
  have tphase : t.eng.phase = .connected := by
    rw [teng]
    rfl
  have ttick : t.strobes.tick = true := by rwa [tstrobes]
  have hfirst : nextStrobe (t.setLevels l) =
      some (.tick l.busActive l.raw, (t.setLevels l).setStrobes { t.strobes with tick := false }) :=
    nextStrobe_of_tick (s := t.setLevels l) (by rwa [State.setLevels_strobes, tstrobes])
      (by rw [State.setLevels_strobes, tstrobes]; rfl) (by rw [State.setLevels_eng, tphase]; decide) ttick
  exact ⟨t, (step_of_event (fetch_of_strobe (nextStrobe_of_txDone hrst htx))).trans ht, tphase, ttick,
    step_of_event (fetch_of_strobe hfirst)⟩

/-! ### Phases over a step (R121) -/

/-- Out of Disconnected an event leads to the start of a handshake or nowhere. -/
theorem exec_of_disconnected {i : Instr} {s t : State} (hphase : s.eng.phase = .disconnected) (h : exec i s = .next t) :
    t.eng.phase = .disconnected ∨ t.eng = { phase := .announcing, idx := 0 } := by
  obtain rfl | ⟨busActive, raw, -, -, rfl⟩ | ⟨gate, device, -, -, rfl⟩ | ⟨-, rfl⟩ | ⟨-, b, -, rfl⟩ := exec_cases h
  case inr.inl =>
    obtain ⟨-, e⟩ | ⟨-, -, e⟩ | ⟨-, -, -, -, e⟩ | ⟨-, -, -, -, e⟩ | ⟨-, -, hne, -⟩ | ⟨g, -, -, hne, -⟩ :=
      trySend_cases busActive (sample raw (actTick s))
    · exact .inl (by rw [e]; exact hphase)
    · exact .inl (by rw [e]; rfl)
    · exact .inr (by rw [e]; rfl)
    · exact .inl (by rw [e]; exact hphase)
    · exact absurd hphase hne
    · exact absurd hphase hne
  case inr.inr.inr.inr => exact .inl rfl
  all_goals exact .inl hphase

theorem announceStep_of_not_announcing {s : State} (h : s.eng.phase ≠ .announcing) : announceStep s = s :=
  if_neg fun he => h ((announceEnabled_iff s).mp he).1

theorem announced_phase_ne_disconnected {e : Engine} (h : e.phase = .announcing) :
    e.announced.phase ≠ .disconnected := by
  obtain ⟨hnext, -⟩ := ProtocolEngine.announced_by_idx e h
  rw [hnext]
  split <;> decide

/-- The eager step leaves Announcing for Connected only, and from group 0 not at all. -/
theorem announceStep_phase_of_announcing {s : State} (h : s.eng.phase = .announcing) :
    (announceStep s).eng.phase ≠ .disconnected ∧ (s.eng.idx = 0 → (announceStep s).eng.phase = .announcing) := by
  obtain ⟨-, e⟩ | ⟨-, e⟩ := announceStep_cases s <;> rw [e]
  · obtain ⟨hnext, -⟩ := ProtocolEngine.announced_by_idx s.eng h
    rw [announce_eng]
    refine ⟨announced_phase_ne_disconnected h, fun hzero => ?_⟩
    rw [hnext, hzero]
    rfl
  · exact ⟨by simp [h], fun _ => h⟩

/-- Settles O34: from Disconnected a step reaches group 0 of a handshake at most; while Announcing only RESET disconnects. -/
theorem connectedOnlyThroughAnnouncing : Obligations.ConnectedOnlyThroughAnnouncing := by
  unfold Obligations.ConnectedOnlyThroughAnnouncing
  intro s t h
  obtain ⟨i, u, hf, v, hv, rfl⟩ | ⟨-, -, rfl⟩ := step_cases h
  · obtain ⟨-, -, -, heng, -⟩ := fetch_event_frame hf
    refine ⟨fun hphase => ?disconnected, fun hphase hleft => ?announcing⟩
    case disconnected =>
      obtain hv | hv := exec_of_disconnected (by rwa [State.setTxValid_eng, heng]) hv
      · rw [announceStep_of_not_announcing (by simp [hv]), hv]
        decide
      · obtain ⟨-, hstart⟩ := announceStep_phase_of_announcing (s := v) (by rw [hv])
        rw [hstart (by rw [hv])]
        decide
    case announcing =>
      by_cases hi : i = .reset
      · exact ⟨u, by rw [hf, hi]⟩
      · have hvphase : v.eng.phase = .announcing := by
          obtain rfl | ⟨-, rfl⟩ := exec_of_announcing (by rwa [State.setTxValid_eng, heng]) hi hv <;>
            exact (congrArg Engine.phase heng).trans hphase
        obtain ⟨hstays, -⟩ := announceStep_phase_of_announcing hvphase
        exact absurd hleft hstays
  · exact ⟨fun hphase => by simp [hphase], fun hphase hleft => absurd (hphase.symm.trans hleft) (by decide)⟩

/-! ### The busy-wait (R166) -/

/-- The engine, the slot, the devices, the channels and CFG are the same. -/
def SameRecords (s t : State) : Prop :=
  t.eng = s.eng ∧ t.txbuf = s.txbuf ∧ t.dev = s.dev ∧ t.ch = s.ch ∧ t.cfg = s.cfg

theorem SameRecords.trans {s t u : State} (h : SameRecords s t) (h' : SameRecords t u) : SameRecords s u := by
  obtain ⟨heng, htxbuf, hdev, hch, hcfg⟩ := h
  obtain ⟨heng', htxbuf', hdev', hch', hcfg'⟩ := h'
  exact ⟨heng'.trans heng, htxbuf'.trans htxbuf, hdev'.trans hdev, hch'.trans hch, hcfg'.trans hcfg⟩

/-- Only RESET and TXDONE end the wait: every other event is held or changes nothing, and the slot stays busy. -/
theorem step_of_waiting {s t : State} (hphase : s.eng.phase = .announcing) (hbusy : s.txbuf.busy = true)
    (hnoReset : ∀ u, fetch s ≠ .event .reset u) (hnoTxdone : ∀ u, fetch s ≠ .event .txdone u) (h : step s = .next t) :
    SameRecords s t := by
  obtain ⟨i, u, hf, v, hv, rfl⟩ | ⟨-, -, rfl⟩ := step_cases h
  · obtain ⟨hcfg, hdev, hch, heng, htxbuf, -⟩ := fetch_event_frame hf
    have hi : i ≠ .reset := by
      rintro rfl
      exact hnoReset u hf
    obtain rfl | ⟨rfl, -⟩ := exec_of_announcing (by rwa [State.setTxValid_eng, heng]) hi hv
    · have hwaits : announceEnabled (u.setTxValid false) = false := by
        rw [announceEnabled, State.setTxValid_txbuf, htxbuf, hbusy, Bool.not_true, Bool.and_false]
      have hstays : announceStep (u.setTxValid false) = u.setTxValid false := if_neg (by simp [hwaits])
      rw [hstays]
      exact ⟨heng, htxbuf, hdev, hch, hcfg⟩
    · exact absurd hf (hnoTxdone u)
  · exact ⟨rfl, rfl, rfl, rfl, rfl⟩

/-- A handshake that waits for a TXDONE which neither stands at the ports nor comes in the trace. -/
structure Hung (s : State) : Prop where
  phase : s.eng.phase = .announcing
  busy : s.txbuf.busy = true
  rst : s.strobes.rst = false
  txDone : s.strobes.txDone = false
  trace : ∀ l ∈ s.trace, ∃ i, decode l.word = some i ∧ i ≠ .reset ∧ i ≠ .txdone

/-- What a hung handshake fetches: an event that ends no wait, from a state that has given up at most a line; or a held one. -/
theorem Hung.fetch_cases {s : State} (h : Hung s) :
    (∃ i u, i ≠ .reset ∧ i ≠ .txdone ∧ u.strobes = s.strobes ∧ u.trace ⊆ s.trace ∧ fetch s = .event i u) ∨
    ∃ i, fetch s = .held i := by
  obtain ⟨i, u, hstrobe, -⟩ | ⟨-, -, e⟩ | ⟨l, rest, htrace, hword, -⟩ | ⟨l, rest, i, htrace, hword, e⟩ |
    ⟨l, rest, i, -, -, e⟩ := Steps.fetch_cases s
  · cases (nextStrobe_none_of_announcing h.phase h.rst h.txDone).symm.trans hstrobe
  · exact .inl ⟨.nop, s, by decide, by decide, rfl, List.Subset.refl _, e⟩
  · obtain ⟨i, hi, -⟩ := h.trace l (by simp [htrace])
    cases hword.symm.trans hi
  · obtain ⟨j, hj, hreset, htxdone⟩ := h.trace l (by simp [htrace])
    cases hword.symm.trans hj
    refine .inl ⟨i, _, hreset, htxdone, giveUp_strobes hreset, ?_, e⟩
    rw [giveUp_trace, htrace]
    exact List.subset_cons_self l rest
  · exact .inr ⟨i, e⟩

theorem Hung.step {s : State} (h : Hung s) : ∃ t, step s = .next t ∧ SameRecords s t ∧ Hung t := by
  obtain ⟨i, u, hreset, htxdone, hstrobes, htrace, hf⟩ | ⟨i, hf⟩ := h.fetch_cases
  · obtain ⟨t, ht⟩ := takeEvent_next i u
    have hstep := (step_of_event hf).trans ht
    have hsame := step_of_waiting h.phase h.busy (fun v hv => hreset (Fetched.event.inj (hf.symm.trans hv)).1)
      (fun v hv => htxdone (Fetched.event.inj (hf.symm.trans hv)).1) hstep
    have ⟨heng, htxbuf, _⟩ := hsame
    obtain ⟨tstrobes, ttrace⟩ := takeEvent_ports ht
    rw [hstrobes] at tstrobes
    exact ⟨t, hstep, hsame,
      { phase := by rw [heng, h.phase]
        busy := by rw [htxbuf, h.busy]
        rst := by rw [tstrobes, h.rst]
        txDone := by rw [tstrobes, h.txDone]
        trace := fun l hl => h.trace l (htrace (ttrace ▸ hl)) }⟩
  · exact ⟨s, step_of_held hf, ⟨rfl, rfl, rfl, rfl, rfl⟩, h⟩

theorem run_succ_of_step {M : Host.Core} {s t : M.State} (h : M.step s = .next t) (n : Nat) :
    M.run (n + 1) s = M.run n t := by
  simp only [Host.Core.run, h]

theorem core_run_succ {s t : State} (h : step s = .next t) (n : Nat) : core.run (n + 1) s = core.run n t :=
  run_succ_of_step (M := core) h n

theorem Hung.run {s : State} (h : Hung s) (n : Nat) : ∃ t : State, core.run n s = .next t ∧ SameRecords s t := by
  induction n generalizing s with
  | zero => exact ⟨s, rfl, rfl, rfl, rfl, rfl, rfl⟩
  | succ n ih =>
    obtain ⟨t, hstep, hsame, hung⟩ := h.step
    obtain ⟨u, hrun, hrest⟩ := ih hung
    exact ⟨u, (core_run_succ hstep n).trans hrun, hsame.trans hrest⟩

theorem run_of_fixed {s : State} (h : step s = .next s) (n : Nat) : core.run n s = .next s := by
  induction n with
  | zero => rfl
  | succ n ih => exact (core_run_succ h n).trans ih

theorem held_of_mnemonic {i : Instr} (h : i.mnemonic = "TICK" ∨ i.mnemonic = "ACT" ∨ i.mnemonic = "DEACT") :
    accepted i .announcing = false := by
  cases i with
  | nop => exact absurd h (by decide)
  | tick busActive raw => rfl
  | deact gate device => rfl
  | act gate device => rfl
  | txdone => exact absurd h (by decide)
  | reset => exact absurd h (by decide)

/-- Settles O36: R166, for one step, for any number of steps, and at a held word. -/
theorem busyWaitHangsWithoutTxdone : Obligations.BusyWaitHangsWithoutTxdone := by
  unfold Obligations.BusyWaitHangsWithoutTxdone
  refine ⟨fun s t hphase hbusy hnoReset hnoTxdone h => step_of_waiting hphase hbusy hnoReset hnoTxdone h,
    fun s n hphase hbusy hrst htx htrace => Hung.run ⟨hphase, hbusy, hrst, htx, htrace⟩ n,
    fun s l rest i n hphase _ hrst htx htrace hword hi => ?held⟩
  case held =>
    have hheld : accepted i s.eng.phase = false := by rw [hphase, held_of_mnemonic hi]
    have hfetch := fetch_of_held (nextStrobe_none_of_announcing hphase hrst htx) htrace hword hheld
    exact run_of_fixed (step_of_held hfetch) n

end Sys2Proof.Steps
end

section
/-! PROOFS. RESET and CFGMEM (70_reset_and_hazards.md R160, 40_address_resolver.md R84, 20_memory.md R41, R56): what RESET
installs and what it does not look at, the store under the environment's writes, and that no other event sees it. -/

namespace Sys2Proof.Store

open Sys2Proof.Machine

/-! ### RESET (R84, R160) -/

theorem xcmdOffset_pos : 1 ≤ Config.xcmdOffset := Nat.le_add_left _ _

/-- The extended address is computed from the resolved address that RESET installs beside it. -/
theorem cfgOf_xaddr_cases (b : CfgBytes) :
    (((cfgOf b).daddrValid = true ∧ (cfgOf b).daddr.toNat + Config.xcmdOffset ≤ Config.xcmdMax) ∧
      (cfgOf b).xaddr = (cfgOf b).daddr.toNat + Config.xcmdOffset) ∨
    (¬ ((cfgOf b).daddrValid = true ∧ (cfgOf b).daddr.toNat + Config.xcmdOffset ≤ Config.xcmdMax) ∧
      (cfgOf b).xaddr = Config.xcmdOffset - 1) := by
  have hcomposed : (cfgOf b).daddrValid = true →
      (cfgOf b).daddr.toNat = composedAddr (cfgOf b).mode b.addrLo b.addrHi := Resolver.resolvedAddr_of_valid
  obtain ⟨hvalid, hle, hx⟩ | ⟨hnot, hx⟩ := Invariants.extendedAddr_cases Config.xcmdOffset Config.xcmdMax
    (cfgOf b).daddrValid (composedAddr (cfgOf b).mode b.addrLo b.addrHi)
  · rw [hcomposed hvalid]
    exact .inl ⟨⟨hvalid, hle⟩, hx⟩
  · refine .inr ⟨fun ⟨hvalid, hle⟩ => hnot ⟨hvalid, ?_⟩, hx⟩
    rwa [← hcomposed hvalid]

/-- Settles O46: R84, the real result and the sentinel. -/
theorem resetResolvesTheExtendedAddress : Obligations.ResetResolvesTheExtendedAddress := by
  unfold Obligations.ResetResolvesTheExtendedAddress
  refine ⟨xcmdOffset_pos, Invariants.xcmdOffset_le_xcmdMax, fun s => ⟨_, Resolver.exec_reset s, ?_⟩⟩
  have hpos := xcmdOffset_pos
  rw [Resolver.resetWith_cfg]
  obtain ⟨hreal, hx⟩ | ⟨hnot, hx⟩ := cfgOf_xaddr_cases (Resolver.portBytes s.cfgmem)
  · rw [if_pos hreal]
    exact ⟨hx, by omega⟩
  · rw [if_neg hnot]
    exact ⟨hx, by omega⟩

/-- Settles O47: R160, record by record. -/
theorem resetInstallsEveryRecord : Obligations.ResetInstallsEveryRecord := by
  unfold Obligations.ResetInstallsEveryRecord
  refine fun s => ⟨_, Resolver.exec_reset s, rfl, rfl, rfl, fun d => ?_, fun c => ChFile.get_reset c, rfl, rfl, rfl,
    ⟨fun _ => rfl, rfl, rfl, rfl⟩⟩
  fin_cases d <;> rfl

/-- RESET takes from CFGMEM what its eleven reads give. -/
theorem portBytes_congr {m m' : Memory} (h : ∀ i, m.read i = m'.read i) : Resolver.portBytes m = Resolver.portBytes m' := by
  have hload : loadCfg m = loadCfg m' := by simp only [loadCfg, h]
  rw [loadCfg_eq, loadCfg_eq] at hload
  exact Except.ok.inj hload

/-- Settles O48: what RESET installs is a function of the bytes it reads. -/
theorem resetForgetsWhatPrecededIt : Obligations.ResetForgetsWhatPrecededIt := by
  unfold Obligations.ResetForgetsWhatPrecededIt
  intro s s' t t' hread h h'
  rw [Resolver.exec_reset] at h h'
  rw [portBytes_congr hread] at h
  cases h
  cases h'
  exact ⟨rfl, rfl, rfl, rfl, rfl⟩

/-- Eleven zero bytes give the address 0, so the extended address is the offset itself. -/
theorem cfgOf_emptyStore : cfgOf (Resolver.portBytes []) = State.reset.cfg := by
  obtain ⟨-, hx⟩ | ⟨hnot, -⟩ := cfgOf_xaddr_cases (Resolver.portBytes [])
  · have hzero : (cfgOf (Resolver.portBytes [])).xaddr = Config.xcmdOffset := hx.trans (Nat.zero_add _)
    exact congrArg (fun x => { State.reset.cfg with xaddr := x }) hzero
  · exact absurd ⟨rfl, (Nat.zero_add Config.xcmdOffset).trans_le Invariants.xcmdOffset_le_xcmdMax⟩ hnot

/-- Settles O49: RESET of an empty store, record by record (log entries 1 and 2). -/
theorem resetStateIsResetOfAnEmptyStore : Obligations.ResetStateIsResetOfAnEmptyStore := by
  unfold Obligations.ResetStateIsResetOfAnEmptyStore
  exact ⟨_, Resolver.exec_reset State.reset, cfgOf_emptyStore, rfl, rfl, rfl, rfl, rfl⟩

/-! ### The store (R41, R68) -/

theorem read_out_of_range (m : Memory) {i : Nat} (h : 10 < i) : m.read i = .error (.cfgmemIndex i) :=
  if_neg (Nat.not_lt.mpr h)

theorem write_out_of_range (m : Memory) {i : Nat} (b : Byte) (h : 10 < i) : m.write i b = .error (.cfgmemIndex i) :=
  if_neg (Nat.not_lt.mpr h)

theorem write_in_range (m : Memory) {i : Nat} (b : Byte) (h : i ≤ 10) : m.write i b = .ok (m.put i b) :=
  if_pos (Nat.lt_succ_of_le h)

theorem read_put_same {m : Memory} {i : Nat} (b : Byte) (hm : m.wf = true) (h : i ≤ 10) : (m.put i b).read i = .ok b := by
  rw [Memory.read_in_range _ (Nat.lt_succ_of_le h), Memory.byteAt_put_same b hm]

theorem read_put_other (m : Memory) {i j : Nat} (b : Byte) (h : j ≠ i) : (m.put i b).read j = m.read j := by
  rw [Memory.read, Memory.read, Memory.byteAt_put_other m b h]

/-- The store after a list of bytes is written, each at its index. -/
def putAll (es : List Host.Cell) (m : Memory) : Memory := es.foldl (fun m (e : Host.Cell) => Memory.put m e.1 e.2) m

theorem byteAt_putAll_other {es : List Host.Cell} {j : Nat} (m : Memory) (h : j ∉ es.map Prod.fst) :
    (putAll es m).byteAt j = m.byteAt j := by
  induction es generalizing m with
  | nil => rfl
  | cons e rest ih =>
    obtain ⟨hne, hrest⟩ := not_or.mp (mt List.mem_cons.mpr h)
    exact (ih _ hrest).trans (Memory.byteAt_put_other m e.2 hne)

/-- Where no index is written twice, each byte of the list is read back. -/
theorem byteAt_putAll {es : List Host.Cell} {m : Memory} (hm : m.wf = true) (hrange : ∀ e ∈ es, e.1 < Config.cfgSize)
    (hnodup : (es.map Prod.fst).Nodup) : ∀ e ∈ es, (putAll es m).byteAt e.1 = e.2 := by
  induction es generalizing m with
  | nil => simp
  | cons e rest ih =>
    obtain ⟨hfresh, hrest⟩ := List.nodup_cons.mp hnodup
    obtain ⟨he, hrange⟩ := List.forall_mem_cons.mp hrange
    exact List.forall_mem_cons.mpr ⟨(byteAt_putAll_other _ hfresh).trans (Memory.byteAt_put_same e.2 hm),
      ih (Memory.wfFrom_put e.2 hm (Nat.zero_le _) he) hrange hrest⟩

/-- The bytes of R68 with their indices. -/
def cfgCells (b : CfgBytes) : List Host.Cell :=
  [(0, b.addrLo), (1, b.addrHi), (2, b.mode), (3, b.hold0), (4, b.hold1), (5, b.hold2), (6, b.hold3), (7, b.fbAddr),
    (8, b.split), (9, b.retx), (10, b.reassert)]

theorem ofCfg_eq_putAll (b : CfgBytes) : Memory.ofCfg b = putAll (cfgCells b) [] := rfl

theorem loadCfg_ofCfg (b : CfgBytes) : loadCfg (Memory.ofCfg b) = .ok b := by
  have hcells : ∀ e ∈ cfgCells b, (Memory.ofCfg b).byteAt e.1 = e.2 := by
    rw [ofCfg_eq_putAll]
    exact byteAt_putAll rfl (by simp [cfgCells, Config.cfgSize]) (by simp [cfgCells])
  simp only [cfgCells, List.forall_mem_cons] at hcells
  obtain ⟨h0, h1, h2, h3, h4, h5, h6, h7, h8, h9, h10, -⟩ := hcells
  rw [loadCfg_eq, h0, h1, h2, h3, h4, h5, h6, h7, h8, h9, h10]

/-- Settles O51: R41 for an index out of range and for one in range, R68 for the eleven bytes. -/
theorem configurationStoreReadsBackWrites : Obligations.ConfigurationStoreReadsBackWrites := by
  unfold Obligations.ConfigurationStoreReadsBackWrites
  refine ⟨fun m i b h => ⟨read_out_of_range m h, write_out_of_range m b h⟩, fun m i b h hm => ?_,
    fun b => ⟨Memory.wf_ofCfg b, loadCfg_ofCfg b⟩⟩
  have hwrite := write_in_range m b h
  exact ⟨_, hwrite, Memory.wf_write hm hwrite, read_put_same b hm h, fun j hj => read_put_other m b hj⟩

/-! ### The running core (R11, R56) -/

/-- Settles O52: R56 and R164; fetching writes no record, and RESET alone writes CFG and the hold times. -/
theorem configurationChangesOnlyAtReset : Obligations.ConfigurationChangesOnlyAtReset := by
  unfold Obligations.ConfigurationChangesOnlyAtReset
  intro s t hnoReset h
  obtain ⟨i, u, hf, v, hv, rfl⟩ | ⟨-, -, rfl⟩ := step_cases h
  · have hi : i ≠ .reset := by
      rintro rfl
      exact hnoReset u hf
    obtain ⟨hcfg, hdev, -⟩ := fetch_event_frame hf
    rw [announceStep_cfg, announceStep_dev, Frames.exec_cfg hv hi, State.setTxValid_cfg, hcfg]
    exact ⟨rfl, fun d => by rw [Frames.exec_hold hv hi, State.setTxValid_dev, hdev]⟩
  · exact ⟨rfl, fun d => rfl⟩

theorem scanGroups_setCfgmem (gs : List (Fin 4)) (s : State) (m : Memory) :
    scanGroups gs (s.setCfgmem m) = (scanGroups gs s).setCfgmem m := by
  induction gs with
  | nil => rfl
  | cons g rest ih =>
    rw [scanGroups, scanGroups, State.setCfgmem_ch, ih]
    split <;> rfl

theorem joinGuard_setCfgmem (s : State) (m : Memory) : joinGuard (s.setCfgmem m) = (joinGuard s).setCfgmem m := by
  rw [joinGuard, joinGuard, State.setCfgmem_ch]
  split <;> rfl

theorem scan_setCfgmem (s : State) (m : Memory) : scan (s.setCfgmem m) = (scan s).setCfgmem m := by
  rw [scan, scan, State.setCfgmem_txbuf, scanGroups_setCfgmem]
  split <;> rfl

theorem trySend_setCfgmem (busActive : Bool) (s : State) (m : Memory) :
    trySend busActive (s.setCfgmem m) = (trySend busActive s).setCfgmem m := by
  rw [trySend, trySend, State.setCfgmem_cfg, State.setCfgmem_eng, joinGuard_setCfgmem, scan_setCfgmem]
  split_ifs <;> rfl

/-- The sampling and ACT_TICK before it commute with the environment's write as they stand. -/
theorem tick_parts_setCfgmem (busActive : Bool) (raw : Byte) (s : State) (m : Memory) :
    trySend busActive (sample raw (actTick (s.setCfgmem m))) = (trySend busActive (sample raw (actTick s))).setCfgmem m :=
  trySend_setCfgmem busActive (sample raw (actTick s)) m

/-- An event whose transition commutes with the environment's write does so held or not. -/
theorem whenReady_setCfgmem {s t : State} {f : State → State} (m : Memory)
    (hf : f (s.setCfgmem m) = (f s).setCfgmem m) (h : whenReady s f = .next t) :
    whenReady (s.setCfgmem m) f = .next (t.setCfgmem m) := by
  obtain ⟨hready, rfl⟩ | ⟨hheld, rfl⟩ := whenReady_cases h
  · exact (whenReady_ready (s := s.setCfgmem m) f hready).trans (congrArg Host.Outcome.next hf)
  · exact whenReady_held f hheld

/-- Settles O53: R56, an event at a time. -/
theorem runningCoreNeverSeesTheStore : Obligations.RunningCoreNeverSeesTheStore := by
  unfold Obligations.RunningCoreNeverSeesTheStore
  intro i s t m hi h
  cases i with
  | nop => cases h; rfl
  | tick busActive raw =>
    exact whenReady_setCfgmem (f := fun s => trySend busActive (sample raw (actTick s))) m
      (tick_parts_setCfgmem busActive raw s m) h
  | deact gate device => exact whenReady_setCfgmem (f := fun s => s) m rfl h
  | act gate device =>
    exact whenReady_setCfgmem (f := fun s => s.modifyDev device fun v => v.activate s.cfg.reassert gate) m rfl h
  | txdone => cases h; rfl
  | reset => exact absurd rfl hi

end Sys2Proof.Store
end
